-- ==== Sys2Proof/Word.lean ====
section
/-! DEFINITION. The plain words and index types of the Itajen 4320: bytes of a frame, the 32-bit master tick,
the 12-bit converter code, the three motor slots or holds, the three phases. -/

namespace Sys2Proof

/-- A byte of a frame (R163); also a period number (R11), a tag, a stream identifier. -/
abbrev Byte := BitVec 8

/-- A master tick (R1): 32 bits, wrapping. -/
abbrev Tick := BitVec 32

/-- A converter code, 0 to 4095 (R112). -/
abbrev Code := BitVec 12

/-- One of three like things: a motor slot 0 to 2, or a hold H0 to H2. -/
inductive Ix3 where
  | i0 | i1 | i2
  deriving DecidableEq, Repr

/-- A motor slot number. -/
abbrev Slot := Ix3

/-- A hold number (R110). -/
abbrev HoldId := Ix3

/-- The phases, U < V < W in every tie-break (00_scope.md, Conventions). -/
inductive Phase where
  | u | v | w
  deriving DecidableEq, Repr

/-- The two switches of a phase, LOW before HIGH (R55). -/
inductive Switch where
  | low | high
  deriving DecidableEq, Repr

/-- Three values of one type, one for each slot or hold. -/
structure Triple (α : Type) where
  i0 : α
  i1 : α
  i2 : α
  deriving DecidableEq, Repr

/-- Three values of one type, one for each phase. -/
structure PerPhase (α : Type) where
  u : α
  v : α
  w : α
  deriving DecidableEq, Repr

/-- The number 0, 1 or 2. -/
def Ix3.toNat : Ix3 → Nat
  | .i0 => 0
  | .i1 => 1
  | .i2 => 2

/-- All three, in order. -/
def Ix3.all : List Ix3 := [.i0, .i1, .i2]

def Triple.get {α : Type} (t : Triple α) : Ix3 → α
  | .i0 => t.i0
  | .i1 => t.i1
  | .i2 => t.i2

def Triple.set {α : Type} (t : Triple α) (i : Ix3) (x : α) : Triple α :=
  match i with
  | .i0 => ⟨x, t.i1, t.i2⟩
  | .i1 => ⟨t.i0, x, t.i2⟩
  | .i2 => ⟨t.i0, t.i1, x⟩

def Triple.const {α : Type} (x : α) : Triple α := ⟨x, x, x⟩

def Triple.map {α β : Type} (f : α → β) (t : Triple α) : Triple β := ⟨f t.i0, f t.i1, f t.i2⟩

/-- The values, slot 0 first. -/
def Triple.toList {α : Type} (t : Triple α) : List α := [t.i0, t.i1, t.i2]

/-- The phase's place in the order U, V, W. -/
def Phase.toNat : Phase → Nat
  | .u => 0
  | .v => 1
  | .w => 2

def Phase.all : List Phase := [.u, .v, .w]

/-- The other switch of the phase: a gate's partner (R64). -/
def Switch.other : Switch → Switch
  | .low => .high
  | .high => .low

def PerPhase.get {α : Type} (t : PerPhase α) : Phase → α
  | .u => t.u
  | .v => t.v
  | .w => t.w

def PerPhase.set {α : Type} (t : PerPhase α) (x : Phase) (a : α) : PerPhase α :=
  match x with
  | .u => ⟨a, t.v, t.w⟩
  | .v => ⟨t.u, a, t.w⟩
  | .w => ⟨t.u, t.v, a⟩

def PerPhase.const {α : Type} (a : α) : PerPhase α := ⟨a, a, a⟩

def PerPhase.map {α β : Type} (f : α → β) (t : PerPhase α) : PerPhase β := ⟨f t.u, f t.v, f t.w⟩

def PerPhase.toList {α : Type} (t : PerPhase α) : List α := [t.u, t.v, t.w]

end Sys2Proof
end

