-- ==== Sys2Proof/Syntax.lean ====
section
/-! DEFINITION. The commands: one constructor for each row of spec/opcode_table.json. The table gives its rows no
operands; the operands here are what the row's rules need from outside the part (log 7). -/

namespace Sys2Proof

/-- Why a whole downstream frame is bad (R163): its check differs, or its kind is no downstream kind. -/
inductive BadKind where
  | check | kind
  deriving DecidableEq, Repr

/-- Who stands on the waiting list: a request of a motor, by its plan entry, or the bus supervisor (R114). -/
inductive Waiter where
  | motor (m : Slot) (entry : Fin 6)
  | bus
  deriving DecidableEq, Repr

/-- What names no request (R19, R167, R173): a request code that is none of the six, or the action of a MOTOR_CMD, with the
motor number sent, that is none of the seven. -/
inductive UnknownCode where
  | request (code : Byte)
  | action (motor : BitVec 4)
  deriving DecidableEq, Repr

/-- The commands of the part. `tag` is the request tag of a management request (R167); `motor` is the low half of its
target A as sent, so that a number outside 0 to 2 can be refused (R19). -/
inductive Instr where
  /-- POWER_ON (R15): the level of EN and of OC0 to OC2 (true is HIGH) as the supply rises. -/
  | powerOn (enHigh : Bool) (pins : Triple Bool)
  /-- EN_FALL (R32). -/
  | enFall
  /-- ENABLE_RESET (R33): the levels of OC0 to OC2 at the rising edge of EN (R140). -/
  | enableReset (pins : Triple Bool)
  /-- MASTER_CYCLE_END (R2). -/
  | masterCycleEnd
  /-- SYNC_EDGE (R4). -/
  | syncEdge
  /-- FIRST_VALLEY (R10). -/
  | firstValley (m : Slot)
  /-- VALLEY (R11). -/
  | valley (m : Slot)
  /-- EDGE (R57): the edges of the motor's list at one instant, requested together. -/
  | edge (m : Slot)
  /-- PENDING_TURN_ON (R65), of the gate named. -/
  | pendingTurnOn (m : Slot) (x : Phase) (g : Switch)
  /-- RAMP_COMMUTATION (R76). -/
  | rampCommutation (m : Slot)
  /-- DETECTED_COMMUTATION (R87). -/
  | detectedCommutation (m : Slot)
  /-- SEARCH_TIMEOUT (R85). -/
  | searchTimeout (m : Slot)
  /-- WAITING_LIST_JOIN (R113), of the motor's request for the plan entry. -/
  | waitingListJoin (m : Slot) (entry : Fin 6)
  /-- HOLD_ELIGIBLE (R110). -/
  | holdEligible (h : HoldId)
  /-- FREEZE (R111): the arbiter's grant to the head of the waiting list. -/
  | freeze
  /-- DEADLINE (R116). -/
  | deadline (r : Waiter)
  /-- CONVERSION_COMPLETE (R112): the converter's code of the value under conversion. -/
  | conversionComplete (code : Code)
  /-- BUS_REQUEST_PLACE (R121): the read of BUS_POS at position 0, and the placement. -/
  | busRequestPlace
  /-- OC_PIN_FALL (R140). -/
  | ocPinFall (m : Slot)
  /-- OC_PIN_RISE (R140). -/
  | ocPinRise (m : Slot)
  /-- TRANSFER_START (R133): LSEL falls. -/
  | transferStart
  /-- IDLE_FRAME (R166). -/
  | idleFrame
  /-- SETPOINT (R166, R173): stream identifier, header bytes 2 and 3, tag, apply-at, the three duties. -/
  | setpoint (stream : Byte) (header : BitVec 16) (tag : Byte) (applyAt : Option Byte) (dutyU dutyV dutyW : BitVec 16)
  /-- BAD_FRAME (R163). -/
  | badFrame (why : BadKind)
  /-- ABORTED_TRANSFER (R162). -/
  | abortedTransfer
  /-- READ_RECORD (R168). -/
  | readRecord (tag : Byte) (region : BitVec 4) (segment : BitVec 2) (index : Byte)
  /-- WRITE_RECORD (R169): with the field-select mask and the 24 parameter bytes. -/
  | writeRecord (tag : Byte) (region : BitVec 4) (segment : BitVec 2) (last : Bool) (index : Byte) (mask : BitVec 16)
      (params : List Byte)
  /-- MOTOR_CMD ARM (R20). -/
  | arm (tag : Byte) (motor : BitVec 4)
  /-- MOTOR_CMD DISARM (R21). -/
  | disarm (tag : Byte) (motor : BitVec 4)
  /-- MOTOR_CMD START (R22). -/
  | start (tag : Byte) (motor : BitVec 4)
  /-- MOTOR_CMD PARK (R25). -/
  | park (tag : Byte) (motor : BitVec 4)
  /-- MOTOR_CMD HALT (R29). -/
  | halt (tag : Byte) (motor : BitVec 4)
  /-- MOTOR_CMD RELEASE (R30). -/
  | release (tag : Byte) (motor : BitVec 4)
  /-- MOTOR_CMD ACK_FAULT (R146). -/
  | ackFault (tag : Byte) (motor : BitVec 4)
  /-- READ_STATUS (R170): section and page. -/
  | readStatus (tag : Byte) (sect : BitVec 4) (page : Byte)
  /-- CLEAR_COUNTS (R171). -/
  | clearCounts (tag : Byte) (sect : BitVec 4)
  /-- RESET_PART (R172). -/
  | resetPart (tag : Byte)
  /-- BAD_REQUEST (R167): a management frame that names no request. -/
  | badRequest (tag : Byte) (code : UnknownCode)
  deriving DecidableEq, Repr

end Sys2Proof
end

