-- ==== Sys2Proof/Decode.lean ====
section
/-! DEFINITION. Reading a downstream frame of the link (R162, R163, R167, R173) as the command it is, and writing one.
The opcode table gives its rows no bits, so `decodeTableWord` answers none for every word (log 7). -/

namespace Sys2Proof

/-- One bit of the check's remainder (R163): shift left; combine with x^12 + x^5 + 1 when the bit differs from the top. -/
def crcBit (r : BitVec 16) (b : Bool) : BitVec 16 :=
  if b != r.msb then (r <<< 1) ^^^ 0x1021#16 else r <<< 1

/-- The bits of a byte, most significant first. -/
def byteBits (b : Byte) : List Bool :=
  [b.getLsbD 7, b.getLsbD 6, b.getLsbD 5, b.getLsbD 4, b.getLsbD 3, b.getLsbD 2, b.getLsbD 1, b.getLsbD 0]

/-- The check of R163 over a list of bytes: the remainder starts with all sixteen bits set. -/
def crc16 (bytes : List Byte) : BitVec 16 :=
  bytes.foldl (fun r b => (byteBits b).foldl crcBit r) 0xFFFF#16

/-- The high and the low byte of a 16-bit field, most significant first (R173). -/
def bytes16 (x : BitVec 16) : List Byte := [x.extractLsb' 8 8, x.extractLsb' 0 8]

/-- The 16-bit field of a high and a low byte (R173). -/
def word16 (hi lo : Byte) : BitVec 16 := hi ++ lo

/-- A frame (R163): a 4-byte header, a body filled with zero bytes to 30, and the check of the 34 bytes. -/
def sealFrame (header body : List Byte) : List Byte :=
  let b := header ++ body ++ List.replicate (30 - body.length) 0#8
  b ++ bytes16 (crc16 b)

/-- The byte at a place of a frame; a place beyond the frame reads as 0. -/
def byteAt (f : List Byte) (k : Nat) : Byte := f.getD k 0#8

/-- The MOTOR_CMD of an action number (R173); none where it is none of the seven. -/
def motorCommand (tag : Byte) (motor : BitVec 4) (action : Byte) : Option Instr :=
  match action.toNat with
  | 0 => some (.arm tag motor)
  | 1 => some (.disarm tag motor)
  | 2 => some (.start tag motor)
  | 3 => some (.park tag motor)
  | 4 => some (.halt tag motor)
  | 5 => some (.release tag motor)
  | 6 => some (.ackFault tag motor)
  | _ => none

/-- The management request in a MGMT frame (R167, R173). -/
def decodeRequest (f : List Byte) : Instr :=
  let tag := byteAt f 4
  let code := byteAt f 5
  let a := byteAt f 6
  let b := byteAt f 7
  let low : BitVec 4 := a.extractLsb' 0 4
  let seg : BitVec 2 := a.extractLsb' 4 2
  match code.toNat with
  | 1 => .readRecord tag low seg b
  | 2 => .writeRecord tag low seg (a.getLsbD 7) b (word16 (byteAt f 8) (byteAt f 9)) ((f.drop 10).take 24)
  | 3 => (motorCommand tag low b).getD (.badRequest tag (.action low))
  | 4 => .readStatus tag low b
  | 5 => .clearCounts tag low
  | 6 => .resetPart tag
  | _ => .badRequest tag (.request code)

/-- The setpoint in a SETPOINT frame (R37, R173). -/
def decodeSetpoint (f : List Byte) : Instr :=
  .setpoint (byteAt f 1) (word16 (byteAt f 2) (byteAt f 3)) (byteAt f 4)
    (if (byteAt f 5).getLsbD 0 then some (byteAt f 6) else none)
    (word16 (byteAt f 7) (byteAt f 8)) (word16 (byteAt f 9) (byteAt f 10)) (word16 (byteAt f 11) (byteAt f 12))

/-- The whole bytes that arrived in a transfer, as the command that its end is (R162, R163): fewer than 36 are an
aborted transfer; of 36 or more the first 36 are the frame; the check is judged first, then the kind. -/
def decodeFrame (bytes : List Byte) : Instr :=
  if bytes.length < 36 then .abortedTransfer
  else
    let f := bytes.take 36
    if crc16 (f.take 34) != word16 (byteAt f 34) (byteAt f 35) then .badFrame .check
    else
      match (byteAt f 0).toNat with
      | 0 => .idleFrame
      | 1 => decodeSetpoint f
      | 2 => decodeRequest f
      | _ => .badFrame .kind

/-- The whole bytes of the bits that arrived on LDI, each byte most significant bit first; bits after the last whole byte
are discarded (R162). -/
def bytesOfBits : List Bool → List Byte
  | b7 :: b6 :: b5 :: b4 :: b3 :: b2 :: b1 :: b0 :: l =>
    BitVec.ofBoolListBE [b7, b6, b5, b4, b3, b2, b1, b0] :: bytesOfBits l
  | _ => []

/-- What a transfer's end is, from the bits that arrived in it (R162). -/
def decodeTransfer (bits : List Bool) : Instr := decodeFrame (bytesOfBits bits)

/-- A MGMT frame (R173) of stream identifier 0: tag, code, target A, target B, mask, parameters. -/
def mgmtFrame (tag code a b : Byte) (mask : BitVec 16) (params : List Byte) : List Byte :=
  sealFrame [2#8, 0#8, 0#8, 0#8] ([tag, code, a, b] ++ bytes16 mask ++ params)

/-- Target A of R173: bits 0 to 3 region, section or motor; bits 4 to 5 segment; bit 7 last flag. -/
def targetA (low : BitVec 4) (seg : BitVec 2) (last : Bool) : Byte :=
  BitVec.ofBool last ++ 0#1 ++ seg ++ low

/-- A MOTOR_CMD frame (R173). -/
def motorFrame (tag : Byte) (motor : BitVec 4) (action : Byte) : List Byte :=
  mgmtFrame tag 3#8 (targetA motor 0#2 false) action 0#16 []

/-- The downstream frame of a command that a good frame spells; none for every other command. An unknown action is
written as 7, which is none of the seven. -/
def encodeFrame : Instr → Option (List Byte)
  | .idleFrame => some (sealFrame [0#8, 0#8, 0#8, 0#8] [])
  | .setpoint stream header tag applyAt du dv dw =>
    some (sealFrame ([1#8, stream] ++ bytes16 header)
      ([tag, (if applyAt.isSome then 1#8 else 0#8), applyAt.getD 0#8] ++ bytes16 du ++ bytes16 dv ++ bytes16 dw))
  | .readRecord tag region segment index => some (mgmtFrame tag 1#8 (targetA region segment false) index 0#16 [])
  | .writeRecord tag region segment last index mask params =>
    some (mgmtFrame tag 2#8 (targetA region segment last) index mask params)
  | .arm tag motor => some (motorFrame tag motor 0#8)
  | .disarm tag motor => some (motorFrame tag motor 1#8)
  | .start tag motor => some (motorFrame tag motor 2#8)
  | .park tag motor => some (motorFrame tag motor 3#8)
  | .halt tag motor => some (motorFrame tag motor 4#8)
  | .release tag motor => some (motorFrame tag motor 5#8)
  | .ackFault tag motor => some (motorFrame tag motor 6#8)
  | .readStatus tag sect page => some (mgmtFrame tag 4#8 (targetA sect 0#2 false) page 0#16 [])
  | .clearCounts tag sect => some (mgmtFrame tag 5#8 (targetA sect 0#2 false) 0#8 0#16 [])
  | .resetPart tag => some (mgmtFrame tag 6#8 0#8 0#8 0#16 [])
  | .badRequest tag (.request code) => some (mgmtFrame tag code 0#8 0#8 0#16 [])
  | .badRequest tag (.action motor) => some (motorFrame tag motor 7#8)
  | .powerOn _ _ | .enFall | .enableReset _ | .masterCycleEnd | .syncEdge | .firstValley _ | .valley _ | .edge _ => none
  | .pendingTurnOn _ _ _ | .rampCommutation _ | .detectedCommutation _ | .searchTimeout _ => none
  | .waitingListJoin _ _ | .holdEligible _ | .freeze | .deadline _ | .conversionComplete _ | .busRequestPlace => none
  | .ocPinFall _ | .ocPinRise _ | .transferStart | .badFrame _ | .abortedTransfer => none

/-- The command that a word of the opcode table spells. No row of the table gives bits: none. -/
def decodeTableWord (_nbits _w : Nat) : Option Instr := none

end Sys2Proof
end

