-- ==== Sys2Proof/Config.lean ====
section
/-! DEFINITION. What the hardware fixes for good, and the free values: constants without a body, which stand for
what the spec leaves open. Nothing in Lean can evaluate a free value or prove a value of it. -/

namespace Sys2Proof.Config

/-- The acquisition time A: 24 ticks, fixed (00_scope.md, Conventions; R110). -/
def acquisition : Nat := 24

/-- The conversion time K: 48 ticks a value, fixed (00_scope.md, Conventions; R112). -/
def conversion : Nat := 48

/-- The longest dead time a profile can hold, in ticks (R154, PROFILE word 2). -/
def longestDeadTime : Nat := 255

/-- FREE VALUE (log 3, DESIGN CHOICE of form only): which of several things that the spec takes 'in either order' is
taken first. Applied to the counter `Part.free`, a fresh number at each use. Safe: every order stays possible. -/
opaque pick : Nat → Nat

/-- FREE VALUE (log 3): the code that the converter reads from the analogue world, where the part completes a
conversion by itself. Applied to the counter `Part.free`. Safe. -/
opaque adcCode : Nat → Code

/-- FREE VALUE (log 9): a good frame that lowers the error count from 128 to 127 is acted on as in DEGRADED (true) or
as in ACTIVE (false); R164 does not say. Safe. -/
opaque degradedAtBoundary : Bool

/-- FREE VALUE (log 14): byte 0 of READ_RECORD's reply data, 'the segment number and the record valid mark' (R168),
whose bit places the spec does not give. Safe. -/
opaque segmentByte : Nat → Bool → Byte

/-- FREE VALUE (log 15): whether a PLAN write is taken as consistent for a motor in START_PENDING whose PROFILE word 0
cannot be read (R93 states no result). Safe. -/
opaque planUnjudged : Bool

end Sys2Proof.Config
end

