-- ==== Sys2Proof/Machine/State.lean ====
section
/-! DEFINITION. The state of the part, block by block as 00_scope.md lists the blocks, the outcomes' reasons, and the
state right after power-on. INVENTORY.md lists every field with its rule and its reset value. -/

namespace Sys2Proof.Machine

/-! ## Enumerations (R173 gives their numbers; Machine/Flags.lean) -/

/-- R16. -/
inductive MotorState where
  | off | ready | startPending | running | safeStop | tripped | lockedOut
  deriving DecidableEq, Repr

/-- R27. -/
inductive StopCause where
  | halt | link | starved | busUv | busOv
  deriving DecidableEq, Repr

/-- The state in which START was taken (R22). -/
inductive StartOrigin where
  | ready | safeStop
  deriving DecidableEq, Repr

/-- A safe action or a trip action (R17). -/
inductive GateAction where
  | allOff | lowBrake
  deriving DecidableEq, Repr

/-- R143. -/
inductive FaultCause where
  | ocPin | current | stall | table
  deriving DecidableEq, Repr

/-- R154, PROFILE word 0. -/
inductive DriveMode where
  | sine | block
  deriving DecidableEq, Repr

/-- R154, PROFILE word 0. -/
inductive Sense where
  | leg3 | link
  deriving DecidableEq, Repr

/-- R71. -/
inductive Direction where
  | forward | reverse
  deriving DecidableEq, Repr

/-- R92. -/
inductive PlanKind where
  | legPair | linkA | linkB | blockOn | auxValley | auxPeak
  deriving DecidableEq, Repr

/-- EMPTY, FULL, PARTIAL (R50). -/
inductive WidthClass where
  | empty | full | between
  deriving DecidableEq, Repr

/-- R40. -/
inductive ValleyOutcome where
  | new | held | waiting
  deriving DecidableEq, Repr

/-- R89. -/
inductive CommKind where
  | ramp | detected | timeout
  deriving DecidableEq, Repr

/-- R96. -/
inductive ReqStatus where
  | waiting | frozen | done | missed | unmeasurable
  deriving DecidableEq, Repr

/-- R173's reply codes. -/
inductive ReplyCode where
  | ok | refusedState | refusedField | refusedStatic | incomplete | planTooLarge | planMismatch | degraded | badRequest
  | locked | pinActive | busLow | tableInvalid
  deriving DecidableEq, Repr

/-- R164. -/
inductive LinkState where
  | active | degraded | lost
  deriving DecidableEq, Repr

/-- How many bits of a store word are disturbed (R157). -/
inductive Flips where
  | whole | one | two
  deriving DecidableEq, Repr

/-! ## Timebase (chapter 1) -/

structure Timebase where
  /-- R1 -/
  tick : Tick
  /-- P in force, R2 -/
  p : Nat
  /-- master cycle position, R2 -/
  pos : Nat
  /-- L_m, R2 -/
  len : Nat
  /-- the model's own (log 1): the instant after position L_m - 1 has come and its cycle end is not yet taken -/
  endDue : Bool
  /-- R4 -/
  capture : Option Nat
  /-- extra-edge tally, R4 -/
  tally : Nat
  /-- consecutive capture count, R7 -/
  run : Nat
  /-- R5 -/
  lastErr : Int
  /-- R5 -/
  lastAdj : Int
  /-- R5 -/
  slips : Nat
  /-- R6 -/
  missing : Nat
  /-- R5 -/
  extras : Nat
  deriving DecidableEq, Repr

/-! ## Motor slot (chapter 2) -/

/-- What START_PENDING holds: the start origin (R22), the carrier offset taken (R10), and the model's own mark that the
entry's own instant of that position was taken before the entry (R10, log 4). -/
structure StartWait where
  origin : StartOrigin
  offset : Nat
  taken : Bool
  deriving DecidableEq, Repr

/-- R18. -/
structure GateCopies where
  dt : Nat
  safe : GateAction
  trip : GateAction
  deriving DecidableEq, Repr

/-- The second cause of R144 with its context. -/
structure SecondCause where
  cause : FaultCause
  instant : Tick
  value : Int
  phase : Option Phase
  deriving DecidableEq, Repr

/-- R143, R144. -/
structure FaultRecord where
  cause : FaultCause
  instant : Tick
  period : Option Byte
  value : Int
  phase : Option Phase
  second : Option SecondCause
  deriving DecidableEq, Repr

structure SlotBlock where
  /-- R16 -/
  state : MotorState
  /-- park-pending flag, R25 -/
  park : Bool
  /-- R27 -/
  stopCause : Option StopCause
  /-- START_PENDING only -/
  start : Option StartWait
  /-- R18 -/
  copies : Option GateCopies
  /-- R143 -/
  fault : Option FaultRecord
  deriving DecidableEq, Repr

/-- The carrier of a RUNNING motor (R11): valley tick, period number and length of the period in force. -/
structure Carrier where
  valley : Tick
  period : Byte
  len : Nat
  deriving DecidableEq, Repr

structure Pace where
  /-- pending trim, R8 -/
  trim : Int
  /-- R8 -/
  trimLoss : Nat
  /-- R11 -/
  carrier : Option Carrier
  deriving DecidableEq, Repr

/-! ## Setpoint queue (chapter 3) -/

/-- R37. -/
structure SetRec where
  tag : Byte
  applyAt : Option Byte
  duty : PerPhase (BitVec 16)
  deriving DecidableEq, Repr

/-- R41: the duties after saturation. -/
structure Applied where
  tag : Byte
  duty : PerPhase Nat
  deriving DecidableEq, Repr

structure SetQueue where
  /-- R39 -/
  recs : List SetRec
  /-- R41 -/
  applied : Applied
  /-- consecutive starved count, R43 -/
  starved : Nat
  /-- R39 -/
  overrunFlag : Bool
  /-- R40 -/
  staleFlag : Bool
  /-- R39 -/
  accepted : Nat
  /-- R39 -/
  overruns : Nat
  /-- R40 -/
  stales : Nat
  /-- R38 -/
  stateDiscards : Nat
  /-- R43 -/
  starvedValleys : Nat
  deriving DecidableEq, Repr

/-! ## Edge planner and gate output stage (chapter 4) -/

/-- A pulse [s, e) of width w in carrier time (R53). -/
structure Pulse where
  w : Nat
  s : Nat
  e : Nat
  deriving DecidableEq, Repr

/-- R50. -/
structure LastPlan where
  pulse : PerPhase Pulse
  shA : Nat
  shB : Nat
  len : Nat
  figE : Nat
  deriving DecidableEq, Repr

structure Planner where
  /-- R50 -/
  last : Option LastPlan
  /-- previous-width record, R50 -/
  prev : Option (PerPhase WidthClass)
  /-- R52 -/
  clampZero : Nat
  /-- R52 -/
  clampFull : Nat
  /-- R60 -/
  shiftA : Nat
  /-- R61 -/
  shiftB : Nat
  /-- R60, R61 -/
  refused : Nat
  deriving DecidableEq, Repr

/-- A pending turn-on (R65): the instant of its request, and whether an edge list or the sequencer asked for it, so
that R68 counts its delay. -/
structure PendOn where
  reqAt : Tick
  counted : Bool
  deriving DecidableEq, Repr

/-- R64; `settled` is the model's own (log 5): the gate has been off for at least the longest dead time. -/
structure Gate where
  on : Bool
  lastOff : Tick
  settled : Bool
  pend : Option PendOn
  deriving DecidableEq, Repr

/-- The two gates of a phase, each the other's partner (R64). -/
structure PhaseGates where
  low : Gate
  high : Gate
  deriving DecidableEq, Repr

structure GateStage where
  /-- R64 -/
  gate : PerPhase PhaseGates
  /-- interlock-delay count, R68 -/
  delays : Nat
  deriving DecidableEq, Repr

/-! ## Commutation sequencer (chapter 5) -/

/-- What the sub-phases hold (the state table of chapter 5); the form is the sub-phase (R24). -/
inductive SubData where
  /-- the align count (R75) -/
  | align (count : Nat)
  /-- ramp interval T, confirm count, ramp-hold count (R76 to R78) -/
  | ramp (t confirm hold : Nat)
  /-- t_ref, T_step, f, lost count, LOST_LIMIT in force (R79, R83, R85) -/
  | closed (tRef : Tick) (tStep f lost limit : Nat)
  deriving DecidableEq, Repr

/-- A previous sample (R81): crossing value and freeze instant. -/
structure PrevSample where
  x : Int
  instant : Tick
  deriving DecidableEq, Repr

/-- Crossing search of RAMP and CLOSED: reference instant, SEARCHING or STOPPED, previous sample (R75, R80, R81). -/
structure Search where
  ref : Tick
  searching : Bool
  prev : Option PrevSample
  deriving DecidableEq, Repr

/-- A scheduled commutation (R76, R84). -/
structure SchedComm where
  instant : Tick
  kind : CommKind
  late : Bool
  deriving DecidableEq, Repr

/-- A postponed commutation (R89). -/
structure PostComm where
  kind : CommKind
  late : Bool
  deriving DecidableEq, Repr

/-- An entry of a period's commutation list (R89). -/
structure CommEntry where
  carrierTime : Nat
  step : Fin 6
  kind : CommKind
  late : Bool
  postponed : Bool
  deriving DecidableEq, Repr

/-- The sequencer of a motor RUNNING in BLOCK. -/
structure SeqRun where
  /-- the direction as read at the last valley (R71, log 12) -/
  dir : Direction
  /-- R71 -/
  step : Fin 6
  /-- current pulse, R72 -/
  pulse : Pulse
  /-- the sub-phase and what it holds -/
  data : SubData
  /-- R80; absent in ALIGN -/
  search : Option Search
  /-- the model's own: the step has shown a crossing that was not EARLY (R77) -/
  stepConfirmed : Bool
  /-- R84 -/
  sched : Option SchedComm
  /-- R89 -/
  post : Option PostComm
  /-- search timeout, R85 -/
  timeout : Option Tick
  /-- the model's own: commutations made at a valley instant before the valley is taken (R73, R89) -/
  opening : List CommEntry
  deriving DecidableEq, Repr

structure Sequencer where
  run : Option SeqRun
  /-- R81 -/
  detected : Nat
  /-- R81 -/
  early : Nat
  /-- R84 -/
  late : Nat
  /-- R85 -/
  timeouts : Nat
  /-- R76 -/
  ramps : Nat
  /-- R89 -/
  postponed : Nat
  deriving DecidableEq, Repr

/-! ## Period schedules and requests (chapters 4 to 7) -/

/-- An edge of a period's edge list (R54, R55), and whether it has been requested of the gate output stage (R57). -/
structure Edge where
  carrierTime : Nat
  phase : Phase
  switch : Switch
  on : Bool
  made : Bool
  deriving DecidableEq, Repr

/-- The value of a DONE request's result entry with its own flags (R104, R105). -/
structure Reading where
  value : Int
  rail : Bool
  reconstructed : Bool
  deriving DecidableEq, Repr

/-- A request (R96). `offsets` are the zero offsets of its current channels in channel order; `legs` are the phases a
LEG_PAIR request measures; `phases` name its result entries (R106). The model's own marks: `joined` (on the waiting
list or past it), `stayed` (the motor RUNNING since the freeze, R119), `inStep` (frozen in the step in force, R80). -/
structure Request where
  entry : Fin 6
  tag : Byte
  kind : PlanKind
  priority : Nat
  motorPriority : Nat
  channels : List (Fin 16)
  offsets : List Nat
  legs : List Phase
  phases : List (Option Phase)
  window : Option (Nat × Nat × Nat)
  status : ReqStatus
  frozenAt : Option Tick
  deferred : Bool
  codes : List Code
  readings : List Reading
  joined : Bool
  stayed : Bool
  inStep : Bool
  deriving DecidableEq, Repr

/-- The drive data of a period (R55, R73). -/
inductive Drive where
  | sine (pulse : PerPhase Pulse) (shA shB : Nat)
  | block (step : Fin 6) (pulse : Pulse) (comms : List CommEntry) (crossing : Bool)
  deriving DecidableEq, Repr

/-- A period schedule (00_scope.md, Period schedules; R11, R45, R55, R73, R96, R128). `id` is the model's own serial
number; `handed` marks a schedule already given to the frame builder (R120). -/
structure Schedule where
  id : Nat
  period : Byte
  valley : Tick
  len : Nat
  tag : Byte
  outcome : ValleyOutcome
  overrun : Bool
  stale : Bool
  stream : Byte
  drive : Drive
  edges : List Edge
  reqs : List Request
  handed : Bool
  deriving DecidableEq, Repr

/-- The schedules of a motor: the most recent one (R108) and earlier ones that still wait for a conversion (R120). -/
structure Schedules where
  latest : Option Schedule
  older : List Schedule
  deriving DecidableEq, Repr

/-- R96. -/
structure Finder where
  placed : Nat
  unmeasurable : Nat
  deriving DecidableEq, Repr

/-- The sampling unit's counts of one motor (chapter 7). -/
structure SampCounts where
  frozen : Nat
  deferred : Nat
  missedDeadline : Nat
  missedState : Nat
  deriving DecidableEq, Repr

/-- The protection unit's state of one motor (chapter 9). -/
structure MotorProt where
  /-- comparator input level, true is HIGH (R140) -/
  pinHigh : Bool
  edges : Nat
  ocTrips : Nat
  currentTrips : Nat
  stallTrips : Nat
  tableTrips : Nat
  lockouts : Nat
  deriving DecidableEq, Repr

/-- All the part holds for one motor slot. -/
structure Motor where
  slot : SlotBlock
  pace : Pace
  setq : SetQueue
  planner : Planner
  gates : GateStage
  seqr : Sequencer
  finder : Finder
  scheds : Schedules
  samp : SampCounts
  prot : MotorProt
  deriving DecidableEq, Repr

/-! ## Sampling unit (chapter 7) -/

/-- The request a hold, a FIFO entry or a waiting-list entry stands for. -/
inductive ReqRef where
  | motor (m : Slot) (sched : Nat) (entry : Fin 6) (tag : Byte)
  | bus
  deriving DecidableEq, Repr

/-- R110; `acquired` is the model's own (log 5): HOLD_ELIGIBLE has come since the hold became free. -/
inductive Hold where
  | free (since : Tick) (acquired : Bool)
  | held (channel : Fin 16) (req : ReqRef) (frozenAt : Tick)
  deriving DecidableEq, Repr

/-- R112. -/
structure FifoEntry where
  hold : HoldId
  channel : Fin 16
  req : ReqRef
  deriving DecidableEq, Repr

/-- A waiting-list entry with the keys of R114. -/
structure WaitItem where
  req : ReqRef
  holds : Nat
  planned : Tick
  latest : Tick
  motorPriority : Nat
  priority : Nat
  deriving DecidableEq, Repr

/-- The bus supervisor's request (R121, R122); waiting with its channel and its planned and latest instants. -/
inductive BusReq where
  | absent
  | waiting (channel : Fin 16) (planned latest : Tick)
  | frozen
  deriving DecidableEq, Repr

/-- What the current master cycle has still to do for R121. -/
inductive BusPlan where
  /-- BUS_POS has not been read yet -/
  | unread
  /-- placement at this position -/
  | at (pos : Nat)
  /-- placed, or no request in this cycle -/
  | done
  deriving DecidableEq, Repr

structure Sampler where
  holds : Triple Hold
  /-- absent: IDLE; else the completion instant of the FIFO's head (R112) -/
  conv : Option Tick
  fifo : List FifoEntry
  waiting : List WaitItem
  busReq : BusReq
  busPlan : BusPlan
  lastCode : Option Code
  conversions : Nat
  rails : Nat
  busFrozen : Nat
  busMissed : Nat
  highWater : Nat
  deriving DecidableEq, Repr

/-! ## Upstream frames (chapter 8) -/

/-- R129. -/
structure ResultEntry where
  tag : Byte
  phase : Option Phase
  missed : Bool
  unmeasurable : Bool
  deferred : Bool
  rail : Bool
  reconstructed : Bool
  value : Int
  deriving DecidableEq, Repr

/-- R128. -/
structure SampleFrame where
  motor : Slot
  period : Byte
  stream : Byte
  tag : Byte
  outcome : ValleyOutcome
  overrun : Bool
  stale : Bool
  step : Option (Fin 6)
  crossing : Bool
  commutated : Bool
  shift : Bool
  valley : Tick
  entries : List ResultEntry
  deriving DecidableEq, Repr

/-- The direction of a BUS_CROSS notice (R149, R173). -/
inductive CrossDir where
  | toBelow | toAbove | toHigh | toNormal
  deriving DecidableEq, Repr

/-- The notices (R5, R27, R149, R158); `region` by R173's numbers. -/
inductive Notice where
  | busCross (dir : CrossDir) (code : Code)
  | syncSlip (err : Int)
  | tableInvalid (region : Nat) (index : Nat)
  | safeStop (m : Slot) (cause : StopCause)
  deriving DecidableEq, Repr

/-- R167. -/
structure Reply where
  tag : Byte
  request : Byte
  code : ReplyCode
  data : List Byte
  deriving DecidableEq, Repr

inductive FrameBody where
  | sample (f : SampleFrame)
  | reply (r : Reply)
  | notice (n : Notice)
  deriving DecidableEq, Repr

/-- A frame of the general queue; `id` is the model's own serial number. -/
structure QFrame where
  id : Nat
  body : FrameBody
  deriving DecidableEq, Repr

/-- The frame a transfer carries (R133). -/
inductive Carried where
  | queued (id : Nat)
  | fault (m : Slot)
  | idle
  deriving DecidableEq, Repr

/-- The transfer in progress (R133, R162). -/
inductive Transfer where
  /-- LSEL is high -/
  | absent
  /-- EN was low, or a reset came, during it: its end is not taken -/
  | ignored
  /-- the frame chosen, its 36 bytes, whether a loss came since its start (R137) and whether its fault slot took a new
  record since (R136) -/
  | active (carried : Carried) (bytes : List Byte) (lossSince slotChanged : Bool)
  deriving DecidableEq, Repr

structure Upstream where
  queue : List QFrame
  nextId : Nat
  /-- R132 -/
  slots : Triple (Option FaultRecord)
  transfer : Transfer
  /-- dropped flag, R135 -/
  dropped : Bool
  built : Nat
  sent : Nat
  /-- sample dropped count -/
  lost : Nat
  builtBy : Triple Nat
  displaced : Nat
  refused : Nat
  replyLost : Nat
  noticeLost : Nat
  faultSent : Nat
  replySent : Nat
  noticeSent : Nat
  idleSent : Nat
  unconsumed : Nat
  deriving DecidableEq, Repr

/-! ## Bus supervisor (chapter 9), table store (chapter 10), frame link (chapter 11) -/

/-- R148, R149. -/
structure BusSup where
  uvBelow : Bool
  ovHigh : Bool
  uvCross : Nat
  ovCross : Nat
  deriving DecidableEq, Repr

/-- A word of the store (R152): the fields in the order of R153, R154 and R92 (Machine/Operands.lean), the position its
check code covers, its disturbed bits and its valid mark. -/
structure StoreWord where
  fields : List Nat
  codePos : Nat
  flips : Flips
  valid : Bool
  deriving DecidableEq, Repr

structure Store where
  words : Vector StoreWord 82
  corrected : Nat
  uncorrectable : Nat
  lastCorrected : Option Nat
  lastUncorrectable : Option Nat
  scrubPos : Fin 82
  passes : Nat
  deriving DecidableEq, Repr

/-- A WRITE_RECORD in progress across segments (R169): the words received, each with its number in the record. -/
structure Staging where
  region : BitVec 4
  index : Byte
  mask : BitVec 16
  tag : Byte
  next : Nat
  words : List (Nat × List Byte)
  deriving DecidableEq, Repr

structure Link where
  /-- R164 -/
  errors : Nat
  /-- R165 -/
  recovery : Nat
  /-- last unmatched header, R166 -/
  unmatched : Option (BitVec 32)
  staging : Option Staging
  good : Nat
  badCheck : Nat
  aborted : Nat
  unknownKind : Nat
  routed : Nat
  unmatchedCount : Nat
  droppedBy : Nat
  executed : Nat
  ignored : Nat
  degradedEntries : Nat
  lostEntries : Nat
  deriving DecidableEq, Repr

/-- R35. -/
structure ResetCause where
  power : Bool
  enable : Bool
  soft : Bool
  deriving DecidableEq, Repr

/-- The part: everything the spec gives the device, with the model's own bookkeeping (`nextSched`, `outbox`, `free`). -/
structure Part where
  /-- the level of EN (R32) -/
  en : Bool
  tb : Timebase
  motors : Triple Motor
  sampler : Sampler
  up : Upstream
  bus : BusSup
  store : Store
  link : Link
  cause : ResetCause
  /-- the model's own: serial number of the next period schedule -/
  nextSched : Nat
  /-- the model's own: notices raised by the command under way; empty between commands (log 3) -/
  outbox : List Notice
  /-- the model's own: counter that the free values of Config are applied to (log 3) -/
  free : Nat
  deriving DecidableEq, Repr

/-- The state of the model: the part, and the commands that wait for it, first in, first out. -/
structure State where
  part : Part
  pending : List Instr
  deriving DecidableEq, Repr

/-- Why a command could stop the machine. The spec lets no command stop the part: there is no constructor. -/
inductive Fault where
  deriving DecidableEq, Repr

/-- Why a command could be refused by the model. -/
inductive Refusal where
  /-- Raised by exec for a command that has no meaning yet; no arm raises it. Safe: nothing is claimed of it. -/
  | notModelled (mnemonic : String)
  deriving DecidableEq, Repr

/-! ## The values after power-on -/

/-- Timebase values of R15, with P in force and the first cycle's length as given. -/
def Timebase.initial (p : Nat) : Timebase :=
  { tick := 0#32, p := p, pos := 0, len := p, endDue := false, capture := none, tally := 0, run := 0, lastErr := 0
    lastAdj := 0, slips := 0, missing := 0, extras := 0 }

/-- Slot values of R34. -/
def SlotBlock.initial : SlotBlock :=
  { state := .off, park := false, stopCause := none, start := none, copies := none, fault := none }

/-- R15. -/
def Pace.initial : Pace := { trim := 0, trimLoss := 0, carrier := none }

/-- R47. -/
def SetQueue.initial : SetQueue :=
  { recs := [], applied := ⟨0#8, .const 0⟩, starved := 0, overrunFlag := false, staleFlag := false, accepted := 0
    overruns := 0, stales := 0, stateDiscards := 0, starvedValleys := 0 }

/-- R70. -/
def Planner.initial : Planner :=
  { last := none, prev := none, clampZero := 0, clampFull := 0, shiftA := 0, shiftB := 0, refused := 0 }

/-- A gate that went off at master tick 0, the instant of the reset (R64, R70). -/
def Gate.initial : Gate := { on := false, lastOff := 0#32, settled := false, pend := none }

/-- R70. -/
def GateStage.initial : GateStage := { gate := .const ⟨.initial, .initial⟩, delays := 0 }

/-- R91. -/
def Sequencer.initial : Sequencer :=
  { run := none, detected := 0, early := 0, late := 0, timeouts := 0, ramps := 0, postponed := 0 }

/-- R109. -/
def Finder.initial : Finder := { placed := 0, unmeasurable := 0 }

/-- R109, R124. -/
def Schedules.initial : Schedules := { latest := none, older := [] }

/-- R124. -/
def SampCounts.initial : SampCounts := { frozen := 0, deferred := 0, missedDeadline := 0, missedState := 0 }

/-- R151, with the level at the input. -/
def MotorProt.initial (pinHigh : Bool) : MotorProt :=
  { pinHigh := pinHigh, edges := 0, ocTrips := 0, currentTrips := 0, stallTrips := 0, tableTrips := 0, lockouts := 0 }

def Motor.initial (pinHigh : Bool) : Motor :=
  { slot := .initial, pace := .initial, setq := .initial, planner := .initial, gates := .initial, seqr := .initial
    finder := .initial, scheds := .initial, samp := .initial, prot := .initial pinHigh }

/-- R124; the holds became free at the instant of the reset, master tick 0. -/
def Sampler.initial : Sampler :=
  { holds := .const (.free 0#32 false), conv := none, fifo := [], waiting := [], busReq := .absent, busPlan := .unread
    lastCode := none, conversions := 0, rails := 0, busFrozen := 0, busMissed := 0, highWater := 0 }

/-- R139. -/
def Upstream.initial : Upstream :=
  { queue := [], nextId := 0, slots := .const none, transfer := .absent, dropped := false, built := 0, sent := 0, lost := 0
    builtBy := .const 0, displaced := 0, refused := 0, replyLost := 0, noticeLost := 0, faultSent := 0, replySent := 0
    noticeSent := 0, idleSent := 0, unconsumed := 0 }

/-- R151. -/
def BusSup.initial : BusSup := { uvBelow := true, ovHigh := false, uvCross := 0, ovCross := 0 }

/-- R161: every word invalid. -/
def Store.initial : Store :=
  { words := .ofFn fun i => { fields := [], codePos := i.val, flips := .whole, valid := false }
    corrected := 0, uncorrectable := 0, lastCorrected := none, lastUncorrectable := none, scrubPos := 0, passes := 0 }

/-- R172. -/
def Link.initial : Link :=
  { errors := 0, recovery := 0, unmatched := none, staging := none, good := 0, badCheck := 0, aborted := 0
    unknownKind := 0, routed := 0, unmatchedCount := 0, droppedBy := 0, executed := 0, ignored := 0
    degradedEntries := 0, lostEntries := 0 }

/-- R35: after power-on. -/
def ResetCause.initial : ResetCause := { power := true, enable := false, soft := false }

/-- The part right after power-on with the given level of EN and levels of OC0 to OC2 (R15, R33, R47, R70, R91, R109,
R124, R139, R151, R161, R172). -/
def Part.poweredOn (enHigh : Bool) (pins : Triple Bool) : Part :=
  { en := enHigh, tb := .initial 16000, motors := pins.map Motor.initial, sampler := .initial, up := .initial
    bus := .initial, store := .initial, link := .initial, cause := .initial, nextSched := 0, outbox := [], free := 0 }

/-- The machine right after power-on. The levels of EN and of the comparator inputs are inputs, which the spec gives no
value: HIGH (DESIGN CHOICE, log 2). -/
def State.reset : State := { part := .poweredOn true (.const true), pending := [] }

end Sys2Proof.Machine
end

