-- ==== Sys2Proof/Machine/Ops.lean ====
section
/-! DEFINITION. The operations the blocks share: saturating counts, comparison of instants (R1), access to the blocks of
the part, and the free choices. -/

namespace Sys2Proof.Machine

/-! ## Counts and instants -/

/-- A 16-bit count raised by one, stopping at 65535 (00_scope.md, Conventions). -/
def bump (n : Nat) : Nat := min (n + 1) 65535

/-- A 16-bit count raised by several, stopping at 65535. -/
def bumpBy (n k : Nat) : Nat := min (n + k) 65535

/-- A table-store count raised by one, stopping at 255 (R157, R158). -/
def bumpByte (n : Nat) : Nat := min (n + 1) 255

/-- R1: instant a is at or after instant b. -/
def atOrAfter (a b : Tick) : Bool := decide ((a - b).toNat < 2 ^ 31)

/-- The ticks from instant b to instant a, modulo 2^32 (R1). -/
def ticksFrom (a b : Tick) : Nat := (a - b).toNat

/-- The instant n ticks after t, modulo 2^32 (R1). -/
def later (t : Tick) (n : Nat) : Tick := t + BitVec.ofNat 32 n

/-- x brought into lo to hi. -/
def clampInt (lo hi x : Int) : Int := max lo (min hi x)

/-! ## The blocks of the part -/

def Part.motor (p : Part) (m : Slot) : Motor := p.motors.get m

def Part.modMotor (p : Part) (m : Slot) (f : Motor → Motor) : Part :=
  { p with motors := p.motors.set m (f (p.motors.get m)) }

def Part.modTb (p : Part) (f : Timebase → Timebase) : Part := { p with tb := f p.tb }

def Part.modSampler (p : Part) (f : Sampler → Sampler) : Part := { p with sampler := f p.sampler }

def Part.modUp (p : Part) (f : Upstream → Upstream) : Part := { p with up := f p.up }

def Part.modLink (p : Part) (f : Link → Link) : Part := { p with link := f p.link }

def Part.modStore (p : Part) (f : Store → Store) : Part := { p with store := f p.store }

def Part.modBus (p : Part) (f : BusSup → BusSup) : Part := { p with bus := f p.bus }

def Motor.modSlot (q : Motor) (f : SlotBlock → SlotBlock) : Motor := { q with slot := f q.slot }

def Motor.modPace (q : Motor) (f : Pace → Pace) : Motor := { q with pace := f q.pace }

def Motor.modSetq (q : Motor) (f : SetQueue → SetQueue) : Motor := { q with setq := f q.setq }

def Motor.modPlanner (q : Motor) (f : Planner → Planner) : Motor := { q with planner := f q.planner }

def Motor.modGates (q : Motor) (f : GateStage → GateStage) : Motor := { q with gates := f q.gates }

def Motor.modSeqr (q : Motor) (f : Sequencer → Sequencer) : Motor := { q with seqr := f q.seqr }

def Motor.modScheds (q : Motor) (f : Schedules → Schedules) : Motor := { q with scheds := f q.scheds }

def Motor.modSamp (q : Motor) (f : SampCounts → SampCounts) : Motor := { q with samp := f q.samp }

def Motor.modProt (q : Motor) (f : MotorProt → MotorProt) : Motor := { q with prot := f q.prot }

/-- The motor is RUNNING (R16). -/
def Part.running (p : Part) (m : Slot) : Bool := (p.motor m).slot.state == .running

/-- f done for slot 0, then 1, then 2. -/
def Part.eachMotor (p : Part) (f : Slot → Part → Part) : Part := f .i2 (f .i1 (f .i0 p))

/-- The master tick (R1). -/
def Part.now (p : Part) : Tick := p.tb.tick

/-- A notice raised by the command under way. It joins the general queue at the command's end (R130; log 3). -/
def Part.notice (p : Part) (n : Notice) : Part := { p with outbox := p.outbox ++ [n] }

/-! ## Free choices (log 3) -/

/-- One free choice of two. -/
def Part.flip (p : Part) : Bool × Part := (Config.pick p.free % 2 == 0, { p with free := p.free + 1 })

/-- The members of a list in any order: a free pick among those left, one after another. A list of at most one member
needs no pick. -/
def anyOrder {α : Type} : Nat → Nat → List α → List α
  | 0, _, l => l
  | _ + 1, _, [] => []
  | _ + 1, _, [x] => [x]
  | k + 1, n, x :: y :: l =>
    match (x :: y :: l)[Config.pick n % (l.length + 2)]? with
    | some a => a :: anyOrder k (n + 1) ((x :: y :: l).eraseIdx (Config.pick n % (l.length + 2)))
    | none => x :: y :: l

end Sys2Proof.Machine
end

