-- ==== Sys2Proof/Machine/Arbiter.lean ====
section
/-! DEFINITION. The holds, the waiting list and the arbiter's grant (chapter 7: R110, R111, R113 to R115). The commands'
meanings stand in Machine/Sampling.lean. -/

namespace Sys2Proof.Machine

/-- R110: a FREE hold that has tracked for the acquisition time. `acquired` keeps this true across a wrap of the master
tick (log 5). -/
def Hold.eligible (h : Hold) (now : Tick) : Bool :=
  match h with
  | .free since acquired => acquired || decide (Config.acquisition ≤ ticksFrom now since)
  | .held _ _ _ => false

/-- The holds eligible at an instant, the lowest index first. -/
def Sampler.eligibleHolds (s : Sampler) (now : Tick) : List HoldId := Ix3.all.filter fun h => (s.holds.get h).eligible now

/-- R114: a stands before b, key by key. -/
def WaitItem.before (a b : WaitItem) : Bool :=
  if a.latest ≠ b.latest then atOrAfter b.latest a.latest
  else
    match a.req, b.req with
    | .bus, _ => false
    | .motor _ _ _ _, .bus => true
    | .motor m _ e _, .motor n _ f _ =>
      if a.motorPriority ≠ b.motorPriority then decide (b.motorPriority < a.motorPriority)
      else if m ≠ n then decide (m.toNat < n.toNat)
      else if a.priority ≠ b.priority then decide (b.priority < a.priority)
      else decide (e < f)

/-- An entry put in its place on the waiting list. -/
def insertWait (a : WaitItem) : List WaitItem → List WaitItem
  | [] => [a]
  | b :: l => if a.before b then a :: b :: l else b :: insertWait a l

/-- R114: a request joins the waiting list; the high-water mark follows. -/
def Sampler.joinList (s : Sampler) (a : WaitItem) : Sampler :=
  { s with
    waiting := insertWait a s.waiting
    highWater := max s.highWater (s.waiting.length + 1) }

/-- R115: the head can be frozen at this instant. -/
def Sampler.servable (s : Sampler) (now : Tick) : Bool :=
  match s.waiting with
  | [] => false
  | w :: _ => decide (w.holds ≤ (s.eligibleHolds now).length)

/-- The waiting-list entry of a motor's request at a valley tick; none when the request has no window. -/
def Request.waitItem (r : Request) (m : Slot) (sched : Nat) (valley : Tick) : Option WaitItem :=
  r.window.map fun (_, planned, latest) =>
    { req := .motor m sched r.entry r.tag, holds := r.channels.length, planned := later valley planned
      latest := later valley latest, motorPriority := r.motorPriority, priority := r.priority }

/-- R111: the channels go to eligible holds in channel order; each value joins the FIFO's tail. -/
def Sampler.grant (s : Sampler) (now : Tick) (req : ReqRef) (channels : List (Fin 16)) : Sampler :=
  let pairs := List.zip channels (s.eligibleHolds now)
  let s := pairs.foldl (fun (s : Sampler) (c, h) =>
    { s with holds := s.holds.set h (.held c req now), fifo := s.fifo ++ [{ hold := h, channel := c, req := req }] }) s
  { s with
    waiting := s.waiting.filter (·.req != req)
    conv := match s.conv with
      | some t => some t
      | none => if s.fifo.isEmpty then none else some (later now Config.conversion) }

end Sys2Proof.Machine
end

