-- ==== Sys2Proof/Machine/Operands.lean ====
section
/-! DEFINITION. The operand forms: the targets of management requests (R167, R168, R173), and the words of the table
store with their fields, ranges, classes and link forms (R92, R152 to R154, R174). -/

namespace Sys2Proof.Machine

/-! ## Targets -/

/-- A slot number; none outside 0 to 2. -/
def slotOfNat : Nat → Option Slot
  | 0 => some .i0
  | 1 => some .i1
  | 2 => some .i2
  | _ => none

/-- A record of the store (R152). -/
inductive RecordId where
  | config
  | accept (i : Fin 8)
  | profile (m : Slot)
  | plan (m : Slot)
  deriving DecidableEq, Repr

/-- Words per record (R152). -/
def RecordId.words : RecordId → Nat
  | .config => 8
  | .accept _ => 1
  | .profile _ => 16
  | .plan _ => 6

/-- The position of the record's word 0 (R152). -/
def RecordId.base : RecordId → Nat
  | .config => 0
  | .accept i => 8 + i.val
  | .profile m => 16 + 16 * m.toNat
  | .plan m => 64 + 6 * m.toNat

/-- The position of word k of the record (R152). -/
def RecordId.pos (r : RecordId) (k : Nat) : Fin 82 := Fin.ofNat 82 (r.base + k)

/-- The positions of all the record's words, word 0 first. -/
def RecordId.positions (r : RecordId) : List (Fin 82) := (List.range r.words).map r.pos

/-- The last segment of the record: six words to a segment (R168). -/
def RecordId.lastSegment (r : RecordId) : Nat := (r.words - 1) / 6

/-- The record a region number (R173) and an index name; none where R152 has no such record. A PROFILE or PLAN region
holds the one record whose index is its own motor number (log 8). -/
def recordOf (region : BitVec 4) (index : Byte) : Option RecordId :=
  match region.toNat with
  | 0 => if index = 0#8 then some .config else none
  | 1 => if h : index.toNat < 8 then some (.accept ⟨index.toNat, h⟩) else none
  | 2 => if index = 0#8 then some (.profile .i0) else none
  | 3 => if index = 1#8 then some (.profile .i1) else none
  | 4 => if index = 2#8 then some (.profile .i2) else none
  | 5 => if index = 0#8 then some (.plan .i0) else none
  | 6 => if index = 1#8 then some (.plan .i1) else none
  | 7 => if index = 2#8 then some (.plan .i2) else none
  | _ => none

/-- Whose word stands at a position, and the region number and index that a TABLE_INVALID notice gives it (R158). -/
inductive Owner where
  | config | accept
  | motor (m : Slot)
  deriving DecidableEq, Repr

def ownerOf (pos : Fin 82) : Owner :=
  if pos.val < 8 then .config
  else if pos.val < 16 then .accept
  else if pos.val < 32 then .motor .i0
  else if pos.val < 48 then .motor .i1
  else if pos.val < 64 then .motor .i2
  else if pos.val < 70 then .motor .i0
  else if pos.val < 76 then .motor .i1
  else .motor .i2

/-- The region number (R173) and the index within it of a position (R158). -/
def regionIndex (pos : Fin 82) : Nat × Nat :=
  if pos.val < 8 then (0, pos.val)
  else if pos.val < 16 then (1, pos.val - 8)
  else if pos.val < 64 then (2 + (pos.val - 16) / 16, (pos.val - 16) % 16)
  else (5 + (pos.val - 64) / 6, (pos.val - 64) % 6)

/-- The status sections of R170. -/
inductive SectionId where
  | link | motor (m : Slot) | sampler | store | timebase | device
  deriving DecidableEq, Repr

/-- The section of a number (R173). -/
def sectionOf (n : BitVec 4) : Option SectionId :=
  match n.toNat with
  | 0 => some .link
  | 1 => some (.motor .i0)
  | 2 => some (.motor .i1)
  | 3 => some (.motor .i2)
  | 4 => some .sampler
  | 5 => some .store
  | 6 => some .timebase
  | 7 => some .device
  | _ => none

/-! ## Fields of words -/

/-- How a field travels (R174): a two-valued field shares a byte; every other takes its own bytes. -/
inductive FieldForm where
  | flag
  | num (bytes : Nat)
  deriving DecidableEq, Repr

/-- A field: its range, its form, and whether it is static (R153, R154). A bound that depends on other fields is
checked by the record's own check. -/
structure FieldSpec where
  lo : Nat
  hi : Nat
  form : FieldForm
  isStatic : Bool
  deriving DecidableEq, Repr

/-- A static or live field of a range, one byte, two bytes or three by R174's rule. -/
def fieldSpec (lo hi : Nat) (isStatic : Bool) : FieldSpec :=
  { lo := lo, hi := hi, form := .num (if hi ≤ 255 then 1 else if hi ≤ 65535 then 2 else 3), isStatic := isStatic }

/-- A two-valued field. -/
def flagSpec (isStatic : Bool) : FieldSpec := { lo := 0, hi := 1, form := .flag, isStatic := isStatic }

/-- R153: the eight words of CONFIG. -/
def configSpecs : List (List FieldSpec) :=
  [[fieldSpec 2000 16000 true],
   [flagSpec true, fieldSpec 0 15999 true],
   [fieldSpec 0 8000 true, fieldSpec 0 255 true],
   [fieldSpec 0 15 true, fieldSpec 0 15999 true],
   [fieldSpec 24 1023 true],
   [fieldSpec 0 4095 false, fieldSpec 0 4095 false],
   [fieldSpec 0 255 false, flagSpec false, flagSpec false],
   [fieldSpec 0 255 false]]

/-- R153: the word of an ACCEPT record: enabled, match, mask, destination. -/
def acceptSpecs : List (List FieldSpec) :=
  [[flagSpec false, fieldSpec 0 255 false, fieldSpec 0 255 false, fieldSpec 0 3 false]]

/-- R154: the sixteen words of PROFILE. -/
def profileSpecs : List (List FieldSpec) :=
  [[flagSpec true, flagSpec true, flagSpec true, fieldSpec 0 5 true],
   [fieldSpec 0 15999 true],
   [fieldSpec 0 255 true, fieldSpec 0 1023 true],
   [fieldSpec 0 1023 true, fieldSpec 0 2047 true],
   [fieldSpec 0 15 true, fieldSpec 0 15 true, fieldSpec 0 15 true],
   [fieldSpec 0 15 true, fieldSpec 0 15 true, fieldSpec 0 15 true],
   [fieldSpec 0 4095 false, fieldSpec 0 4095 false],
   [fieldSpec 0 4095 false, fieldSpec 0 3 true, flagSpec true, flagSpec true],
   [fieldSpec 1 8190 false, fieldSpec 0 65535 false],
   [fieldSpec 0 15 false, fieldSpec 1 15 false],
   [fieldSpec 0 32768 true, fieldSpec 1 65535 true],
   [fieldSpec 1000 16777215 true, fieldSpec 1 128 true],
   [fieldSpec 1000 16777215 true, fieldSpec 1 15 true],
   [fieldSpec 1000 16777215 true, fieldSpec 1 255 true],
   [fieldSpec 1000 16777215 true],
   [fieldSpec 1 255 false, fieldSpec 0 255 false]]

/-- R92: a plan word: enabled, kind, tag, decimation as a power of two, aux channel count less one, the two aux
channels, priority. Its link form is its own (R174); every field is live. -/
def planSpecs : List FieldSpec :=
  [flagSpec false, fieldSpec 0 5 false, fieldSpec 0 255 false, fieldSpec 0 6 false, flagSpec false, fieldSpec 0 15 false,
   fieldSpec 0 15 false, fieldSpec 0 3 false]

/-- The fields of word k of a record. -/
def RecordId.specs (r : RecordId) (k : Nat) : List FieldSpec :=
  match r with
  | .config => configSpecs.getD k []
  | .accept _ => acceptSpecs.getD k []
  | .profile _ => profileSpecs.getD k []
  | .plan _ => planSpecs

/-- Field i of a word; a field the word does not have reads as 0. -/
def field (fs : List Nat) (i : Nat) : Nat := fs.getD i 0

/-! ## Link forms (R174) -/

/-- Where a field stands in the four bytes of a word: a bit of a byte, or whole bytes, most significant first. -/
inductive Place where
  | bit (byte b : Nat)
  | num (byte n : Nat)
  deriving DecidableEq, Repr

/-- The places of a word's fields (R174): each at the next free byte; a two-valued field shares the byte of the word's
first two-valued field. `flagByte` is that byte with its next free bit. -/
def placesFrom (next : Nat) (flagByte : Option (Nat × Nat)) : List FieldSpec → List Place
  | [] => []
  | f :: fs =>
    match f.form with
    | .num n => .num next n :: placesFrom (next + n) flagByte fs
    | .flag =>
      match flagByte with
      | none => .bit next 0 :: placesFrom (next + 1) (some (next, 1)) fs
      | some (o, b) => .bit o b :: placesFrom next (some (o, b + 1)) fs

/-- The number in n bytes from a place on, most significant first. -/
def numAt (bytes : List Byte) (start : Nat) : Nat → Nat
  | 0 => 0
  | n + 1 => numAt bytes start n * 256 + (bytes.getD (start + n) 0#8).toNat

def Place.read (bytes : List Byte) : Place → Nat
  | .bit o b => (bytes.getD o 0#8).toNat / 2 ^ b % 2
  | .num o n => numAt bytes o n

/-- What a field's value adds to byte k of the word. -/
def Place.part (k v : Nat) : Place → Nat
  | .bit o b => if k = o then v % 2 * 2 ^ b else 0
  | .num o n => if o ≤ k ∧ k < o + n then v / 256 ^ (o + n - 1 - k) % 256 else 0

/-- Byte k of a word with these places and values. -/
def byteOf (places : List Place) (vals : List Nat) (k : Nat) : Byte :=
  BitVec.ofNat 8 ((List.zipWith (fun pl v => pl.part k v) places vals).sum)

/-- R174: the places of a plan word's fields in the order of `planSpecs`. -/
def planRead (bytes : List Byte) : List Nat :=
  let b := fun k => (bytes.getD k 0#8).toNat
  [b 0 % 2, b 0 / 4 % 8, b 1, b 2 % 8, b 0 / 2 % 2, b 2 / 16, b 3 % 16, b 0 / 32 % 4]

/-- R174: the four bytes of a plan word. -/
def planBytes (fs : List Nat) : List Byte :=
  [BitVec.ofNat 8 (field fs 0 % 2 + 2 * (field fs 4 % 2) + 4 * (field fs 1 % 8) + 32 * (field fs 7 % 4)),
   BitVec.ofNat 8 (field fs 2), BitVec.ofNat 8 (field fs 3 % 8 + 16 * (field fs 5 % 16)), BitVec.ofNat 8 (field fs 6 % 16)]

/-- The fields that the four bytes of a word's link form give (R174). -/
def RecordId.readLink (r : RecordId) (k : Nat) (bytes : List Byte) : List Nat :=
  match r with
  | .plan _ => planRead bytes
  | _ => (placesFrom 0 none (r.specs k)).map (Place.read bytes)

/-- The link form of a word: four bytes (R174). -/
def RecordId.linkBytes (r : RecordId) (k : Nat) (fs : List Nat) : List Byte :=
  match r with
  | .plan _ => planBytes fs
  | _ => [0, 1, 2, 3].map (byteOf (placesFrom 0 none (r.specs k)) fs)

/-! ## What the fields say -/

/-- The plan kind of its number (R92); a number beyond the last is refused at every write. -/
def planKindOf : Nat → PlanKind
  | 0 => .legPair
  | 1 => .linkA
  | 2 => .linkB
  | 3 => .blockOn
  | 4 => .auxValley
  | _ => .auxPeak

/-- A plan entry as the window finder reads it (R92). -/
structure PlanEntry where
  index : Fin 6
  enabled : Bool
  kind : PlanKind
  tag : Byte
  decimation : Nat
  aux : List (Fin 16)
  priority : Nat
  deriving DecidableEq, Repr

def analogInput (n : Nat) : Fin 16 := Fin.ofNat 16 n

def planEntryOf (index : Fin 6) (fs : List Nat) : PlanEntry :=
  { index := index
    enabled := field fs 0 != 0
    kind := planKindOf (field fs 1)
    tag := BitVec.ofNat 8 (field fs 2)
    decimation := 2 ^ field fs 3
    aux := if field fs 4 = 0 then [analogInput (field fs 5)] else [analogInput (field fs 5), analogInput (field fs 6)]
    priority := field fs 7 }

/-- How many values an entry yields (R93). -/
def PlanEntry.values (e : PlanEntry) : Nat :=
  match e.kind with
  | .legPair | .blockOn => 3
  | .linkA | .linkB => 1
  | .auxValley | .auxPeak => e.aux.length

/-- The plan's budget (R93): the values of its enabled entries. -/
def planBudget (es : List PlanEntry) : Nat := ((es.filter (·.enabled)).map (·.values)).sum

/-- The kinds a profile allows (R93). -/
def kindAllowed (mode : DriveMode) (sense : Sense) : PlanKind → Bool
  | .legPair => mode == .sine && sense == .leg3
  | .linkA | .linkB => mode == .sine && sense == .link
  | .blockOn => mode == .block
  | .auxValley | .auxPeak => true

/-- R20, R93: the plan is consistent with the profile. -/
def planConsistent (mode : DriveMode) (sense : Sense) (es : List PlanEntry) : Bool :=
  (es.filter (·.enabled)).all (fun e => kindAllowed mode sense e.kind) &&
    (mode != .block || (es.filter fun e => e.enabled && e.kind == .blockOn).length == 1)

def driveModeOf (n : Nat) : DriveMode := if n = 0 then .sine else .block

def senseOf (n : Nat) : Sense := if n = 0 then .leg3 else .link

def directionOf (n : Nat) : Direction := if n = 0 then .forward else .reverse

def gateActionOf (n : Nat) : GateAction := if n = 0 then .allOff else .lowBrake

/-! ## Range and cross-field checks of R153 and R154 -/

/-- Every field of a word within its range. -/
def wordInRange (specs : List FieldSpec) (fs : List Nat) : Bool :=
  (List.zipWith (fun (sp : FieldSpec) v => decide (sp.lo ≤ v) && decide (v ≤ sp.hi)) specs fs).all id

/-- Field i of word k of a composed record. -/
def recField (ws : List (List Nat)) (k i : Nat) : Nat := field (ws.getD k []) i

/-- R153: P even; SYNC_POS and BUS_POS below P; CAPTURE at most P/2; UV level below OV level. -/
def configRules (ws : List (List Nat)) : Bool :=
  let p := recField ws 0 0
  p % 2 == 0 && decide (recField ws 1 1 < p) && decide (recField ws 2 0 ≤ p / 2) && decide (recField ws 3 1 < p) &&
    decide (recField ws 5 0 < recField ws 5 1)

/-- R154: the carrier offset below P in force; PMIN at least 2·DT + 2; BLOCK requires LINK; T_MIN, T_HANDOVER, T_START,
T_MAX in order; BLANK below T_MIN. -/
def profileRules (pInForce : Nat) (ws : List (List Nat)) : Bool :=
  decide (recField ws 1 0 < pInForce) && decide (2 * recField ws 2 0 + 2 ≤ recField ws 2 1) &&
    (driveModeOf (recField ws 0 0) != .block || senseOf (recField ws 0 1) == .link) &&
    decide (recField ws 13 0 ≤ recField ws 12 0) && decide (recField ws 12 0 ≤ recField ws 11 0) &&
    decide (recField ws 11 0 ≤ recField ws 14 0) && decide (recField ws 8 1 < recField ws 13 0)

/-- R155 step 3: every field in its range and the record's rules kept. -/
def RecordId.fieldsOk (r : RecordId) (pInForce : Nat) (ws : List (List Nat)) : Bool :=
  (List.range r.words).all (fun k => wordInRange (r.specs k) (ws.getD k [])) &&
    match r with
    | .config => configRules ws
    | .profile _ => profileRules pInForce ws
    | .accept _ | .plan _ => true

/-- The plan entries of a composed PLAN record. -/
def planEntries (ws : List (List Nat)) : List PlanEntry :=
  (List.finRange 6).map fun i => planEntryOf i (ws.getD i.val [])

end Sys2Proof.Machine
end

