-- ==== Sys2Proof/Machine/Gates.lean ====
section
/-! DEFINITION. The gate output stage of a motor (chapter 4, section 4.6; R16, R17, R64 to R68): every gate change
passes through here, under the dead-gap interlock. -/

namespace Sys2Proof.Machine

/-- A gate's two-valued place in its phase. -/
def PhaseGates.get (pg : PhaseGates) : Switch → Gate
  | .low => pg.low
  | .high => pg.high

def PhaseGates.set (pg : PhaseGates) (s : Switch) (g : Gate) : PhaseGates :=
  match s with
  | .low => { pg with low := g }
  | .high => { pg with high := g }

def GateStage.gateAt (st : GateStage) (x : Phase) (s : Switch) : Gate := (st.gate.get x).get s

def GateStage.setGate (st : GateStage) (x : Phase) (s : Switch) (g : Gate) : GateStage :=
  { st with gate := st.gate.set x ((st.gate.get x).set s g) }

/-- The gate has been off for the dead time or longer at this instant (R65). `settled` keeps this true across a wrap of
the master tick (log 5). -/
def Gate.gapOver (g : Gate) (now : Tick) (dt : Nat) : Bool := g.settled || decide (dt ≤ ticksFrom now g.lastOff)

/-- The interlock-delay count of R68, raised when the turn-on concerned is one it counts. -/
def GateStage.countDelay (st : GateStage) (counted : Bool) : GateStage :=
  if counted then { st with delays := bump st.delays } else st

/-- R66: a turn-off is carried out at its request; of a gate whose turn-on is pending it cancels the turn-on, and the
last turn-off instant stays; a gate already off is left as it is. -/
def GateStage.turnOff (st : GateStage) (now : Tick) (x : Phase) (s : Switch) : GateStage :=
  let g := st.gateAt x s
  if g.on then st.setGate x s { on := false, lastOff := now, settled := false, pend := none }
  else
    match g.pend with
    | some pd => (st.setGate x s { g with pend := none }).countDelay pd.counted
    | none => st

/-- R65: a turn-on is carried out at once when the partner is off and has been off for DT; otherwise it is pending. A
gate already on is left. A request for a gate whose turn-on is pending replaces it (R66). -/
def GateStage.turnOn (st : GateStage) (now : Tick) (dt : Nat) (counted : Bool) (x : Phase) (s : Switch) : GateStage :=
  let g := st.gateAt x s
  let q := st.gateAt x s.other
  if g.on then st
  else if !q.on && q.gapOver now dt then st.setGate x s { g with on := true, pend := none }
  else st.setGate x s { g with pend := some ⟨now, counted⟩ }

/-- A pending turn-on can be carried out at this instant (R65). -/
def GateStage.pendReady (st : GateStage) (now : Tick) (dt : Nat) (x : Phase) (s : Switch) : Bool :=
  let q := st.gateAt x s.other
  (st.gateAt x s).pend.isSome && !q.on && q.gapOver now dt

/-- PENDING_TURN_ON (R65): the pending turn-on is carried out. R68 counts it when it comes later than its request. -/
def GateStage.carryOut (st : GateStage) (now : Tick) (dt : Nat) (x : Phase) (s : Switch) : GateStage :=
  match (st.gateAt x s).pend with
  | some pd =>
    if st.pendReady now dt x s then
      (st.setGate x s { st.gateAt x s with on := true, pend := none }).countDelay (pd.counted && pd.reqAt != now)
    else st
  | none => st

/-- f for each phase, U, V, W. -/
def GateStage.eachPhase (st : GateStage) (f : Phase → GateStage → GateStage) : GateStage := f .w (f .v (f .u st))

/-- All six gates off, and ALL_OFF (R17). -/
def GateStage.allOff (st : GateStage) (now : Tick) : GateStage :=
  st.eachPhase fun x st => (st.turnOff now x .low).turnOff now x .high

/-- LOW_BRAKE (R17): every HIGH gate off at once, each LOW gate on under the interlock; R68 does not count these. -/
def GateStage.lowBrake (st : GateStage) (now : Tick) (dt : Nat) : GateStage :=
  st.eachPhase fun x st => (st.turnOff now x .high).turnOn now dt false x .low

/-- A safe action or a trip action (R17). -/
def GateStage.action (st : GateStage) (a : GateAction) (now : Tick) (dt : Nat) : GateStage :=
  match a with
  | .allOff => st.allOff now
  | .lowBrake => st.lowBrake now dt

/-- The level a plan gives the two gates of a phase at a valley (R56, R74). -/
structure PhaseLevel where
  low : Bool
  high : Bool
  deriving DecidableEq, Repr

/-- A valley change (R56, R74): first every gate whose valley level is off is turned off (a turn-on still pending for it
is given up, R17), then a turn-on is requested of each whose level is on; R68 does not count these. -/
def GateStage.valleyChange (st : GateStage) (now : Tick) (dt : Nat) (lv : PerPhase PhaseLevel) : GateStage :=
  let off := fun (x : Phase) (st : GateStage) =>
    let st := if (lv.get x).low then st else st.turnOff now x .low
    if (lv.get x).high then st else st.turnOff now x .high
  let on := fun (x : Phase) (st : GateStage) =>
    let st := if (lv.get x).low then st.turnOn now dt false x .low else st
    if (lv.get x).high then st.turnOn now dt false x .high else st
  (st.eachPhase off).eachPhase on

/-- The falling edge of EN (R32, R64, R66): every gate off, its last turn-off instant the instant of the edge, every
pending turn-on cancelled. -/
def GateStage.enFall (st : GateStage) (now : Tick) : GateStage :=
  { st.allOff now with gate := .const ⟨⟨false, now, false, none⟩, ⟨false, now, false, none⟩⟩ }

/-- n ticks pass after the instant `now`: a gate that has then been off for the longest dead time is settled (log 5). -/
def Gate.pass (g : Gate) (now : Tick) (n : Nat) : Gate :=
  if !g.on && decide (Config.longestDeadTime ≤ ticksFrom now g.lastOff + n) then { g with settled := true } else g

def GateStage.pass (st : GateStage) (now : Tick) (n : Nat) : GateStage :=
  { st with gate := st.gate.map fun pg => ⟨pg.low.pass now n, pg.high.pass now n⟩ }

/-- The dead time the stage enforces: the copy taken at ARM (R18). With no copies all gates are off and none is turned
on. -/
def Motor.dt (q : Motor) : Nat := (q.slot.copies.map (·.dt)).getD 0

/-- All six gates of a motor off at this instant. -/
def Motor.allOff (q : Motor) (now : Tick) : Motor := q.modGates (·.allOff now)

/-- The motor's safe action from the gate copies (R16, R27). -/
def Motor.safeAction (q : Motor) (now : Tick) : Motor :=
  q.modGates (·.action ((q.slot.copies.map (·.safe)).getD .allOff) now q.dt)

/-- The motor's trip action from the gate copies, or ALL_OFF for OC_PIN (R31). -/
def Motor.tripAction (q : Motor) (cause : FaultCause) (now : Tick) : Motor :=
  if cause = .ocPin then q.allOff now
  else q.modGates (·.action ((q.slot.copies.map (·.trip)).getD .allOff) now q.dt)

end Sys2Proof.Machine
end

