-- ==== Sys2Proof/Machine/Queue.lean ====
section
/-! DEFINITION. The upstream side that other blocks feed (chapter 8): joining the general queue (R130, R131), the fault
slots (R132), building sample frames from complete period schedules (R120, R127 to R129), and the end of a command. -/

namespace Sys2Proof.Machine

/-! ## The general queue -/

def FrameBody.isSample : FrameBody → Bool
  | .sample _ => true
  | .reply _ | .notice _ => false

/-- The queued frame a transfer is carrying, by its serial number. -/
def Transfer.queuedId : Transfer → Option Nat
  | .active (.queued id) _ _ _ => some id
  | .active (.fault _) _ _ _ | .active .idle _ _ _ | .absent | .ignored => none

/-- R131: the oldest SAMPLE frame that no transfer in progress is carrying. -/
def Upstream.displaceable (u : Upstream) : Option QFrame :=
  u.queue.find? fun f => f.body.isSample && u.transfer.queuedId != some f.id

/-- R130: a displacement or a loss sets the dropped flag; an IDLE transfer in progress must not clear it (R137). -/
def Upstream.setDropped (u : Upstream) : Upstream :=
  { u with
    dropped := true
    transfer := match u.transfer with
      | .active c bytes _ changed => .active c bytes true changed
      | .absent => .absent
      | .ignored => .ignored }

/-- The frame at the tail (R130). -/
def Upstream.append (u : Upstream) (b : FrameBody) : Upstream :=
  { u with queue := u.queue ++ [⟨u.nextId, b⟩], nextId := u.nextId + 1 }

/-- R127: a sample frame built is counted, for the part and for its motor. -/
def Upstream.countBuilt (u : Upstream) : FrameBody → Upstream
  | .sample f => { u with built := bump u.built, builtBy := u.builtBy.set f.motor (bump (u.builtBy.get f.motor)) }
  | .reply _ | .notice _ => u

/-- A newcomer lost to a full queue (R130, rows two to four). -/
def Upstream.lose (u : Upstream) : FrameBody → Upstream
  | .sample _ => { u with refused := bump u.refused, lost := bump u.lost }
  | .reply _ => { u with replyLost := bump u.replyLost }
  | .notice _ => { u with noticeLost := bump u.noticeLost }

/-- R130: a frame joins the general queue. -/
def Upstream.join (u : Upstream) (b : FrameBody) : Upstream :=
  let u := u.countBuilt b
  if u.queue.length < 8 then u.append b
  else
    match u.displaceable with
    | some old =>
      ({ u with queue := u.queue.filter (·.id != old.id), displaced := bump u.displaced, lost := bump u.lost }.setDropped).append b
    | none => (u.lose b).setDropped

def Part.join (p : Part) (b : FrameBody) : Part := p.modUp (·.join b)

/-! ## Fault slots -/

/-- R132: the motor's fault slot takes the record. A transfer that is carrying the slot's frame leaves the slot filled
at its end (R136). -/
def Part.fillFaultSlot (p : Part) (m : Slot) (r : FaultRecord) : Part :=
  p.modUp fun u =>
    { u with
      slots := u.slots.set m (some r)
      transfer := match u.transfer with
        | .active (.fault k) bytes loss changed => .active (.fault k) bytes loss (changed || k == m)
        | t => t }

/-! ## Complete period schedules -/

def ReqStatus.resolved : ReqStatus → Bool
  | .done | .missed | .unmeasurable => true
  | .waiting | .frozen => false

/-- R120: every request resolved. A schedule with an empty request list is never handed on. -/
def Schedule.complete (sc : Schedule) : Bool := !sc.reqs.isEmpty && sc.reqs.all (·.status.resolved) && !sc.handed

/-- The result entries of a request (R106, R129). -/
def Request.entries (r : Request) : List ResultEntry :=
  match r.status with
  | .done =>
    List.zipWith (fun ph (v : Reading) =>
      { tag := r.tag, phase := ph, missed := false, unmeasurable := false, deferred := r.deferred, rail := v.rail
        reconstructed := v.reconstructed, value := v.value }) r.phases r.readings
  | st =>
    r.phases.map fun ph =>
      { tag := r.tag, phase := ph, missed := st == .missed, unmeasurable := st == .unmeasurable, deferred := false
        rail := false, reconstructed := false, value := 0 }

/-- R128: the sample frame of a schedule. -/
def Schedule.frame (sc : Schedule) (m : Slot) : SampleFrame :=
  { motor := m, period := sc.period, stream := sc.stream, tag := sc.tag, outcome := sc.outcome, overrun := sc.overrun
    stale := sc.stale, valley := sc.valley
    step := match sc.drive with
      | .block step _ _ _ => some step
      | .sine _ _ _ => none
    crossing := match sc.drive with
      | .block _ _ _ crossing => crossing
      | .sine _ _ _ => false
    commutated := match sc.drive with
      | .block _ _ comms _ => !comms.isEmpty
      | .sine _ _ _ => false
    shift := match sc.drive with
      | .sine _ shA shB => shA != 0 || shB != 0
      | .block _ _ _ _ => false
    entries := (sc.reqs.map Request.entries).flatten }

/-- The complete schedules of a motor, earlier ones first. -/
def Schedules.ready (s : Schedules) : List Schedule := (s.older ++ s.latest.toList).filter (·.complete)

/-- The complete schedules marked as handed on; an earlier one is then given up. -/
def Schedules.handOn (s : Schedules) : Schedules :=
  { latest := s.latest.map fun sc => if sc.complete then { sc with handed := true } else sc
    older := s.older.filter fun sc => !sc.complete }

/-- The sample frames that are built at this instant (R127). -/
def Part.readyFrames (p : Part) : List FrameBody :=
  (Ix3.all.map fun m => (p.motor m).scheds.ready.map fun sc => FrameBody.sample (sc.frame m)).flatten

/-- What joins the general queue at the end of a command: its notices in the order raised, and the sample frames. -/
def Part.joining (p : Part) : List FrameBody := p.outbox.map FrameBody.notice ++ p.readyFrames

/-- A BUS_CROSS notice. -/
def FrameBody.isCross : FrameBody → Bool
  | .notice (.busCross _ _) => true
  | .sample _ | .reply _ | .notice (.syncSlip _) | .notice (.tableInvalid _ _) | .notice (.safeStop _ _) => false

/-- The BUS_CROSS notices among some frames put in the order given: of two that one code raises, the UV notice joins
first (R149). Every other frame keeps its place, be it between the two (R131). -/
def crossInOrder : List FrameBody → List FrameBody → List FrameBody
  | _, [] => []
  | [], l => l
  | c :: cs, f :: l => if f.isCross then c :: crossInOrder cs l else f :: crossInOrder (c :: cs) l

/-- The frames of one instant in any order that R149 leaves (R131; log 3). -/
def arranged (free : Nat) (frames : List FrameBody) : List FrameBody :=
  crossInOrder (frames.filter FrameBody.isCross) (anyOrder frames.length free frames)

/-- The frames join one after another, each as the one before left the queue (R131). -/
def Part.joinAll (p : Part) (frames : List FrameBody) : Part := frames.foldl Part.join p

/-- The frames a command makes, its notices and the sample frames of the schedules it completed, in the order in which
they join (R127, R131); and the part from which they have been taken. -/
def Part.gather (p : Part) : List FrameBody × Part :=
  (arranged p.free p.joining,
   { p with
     motors := p.motors.map fun (q : Motor) => q.modScheds Schedules.handOn
     outbox := []
     free := p.free + (p.joining.length - 1) })

/-- The end of a command: its frames join the general queue (R127, R131). -/
def Part.settle (p : Part) : Part := p.gather.2.joinAll p.gather.1

end Sys2Proof.Machine
end

