-- ==== Sys2Proof/Machine/Slots.lean ====
section
/-! DEFINITION. What moves a motor slot without a command of the host: leaving RUNNING (R28), SAFE_STOP (R27), trips and
lockout (R31, R143, R144), and the cancelling of requests (R117). -/

namespace Sys2Proof.Machine

/-! ## Requests of a motor -/

/-- f on every request of every schedule of a motor. -/
def Schedules.mapReqs (s : Schedules) (f : Request → Request) : Schedules :=
  { latest := s.latest.map fun sc => { sc with reqs := sc.reqs.map f }
    older := s.older.map fun sc => { sc with reqs := sc.reqs.map f } }

/-- How many requests of a motor are placed or waiting. -/
def Schedules.unfrozen (s : Schedules) : Nat :=
  ((s.latest.toList ++ s.older).map fun sc => (sc.reqs.filter (·.status == .waiting)).length).sum

/-- The entry of the waiting list is a request of the motor. -/
def WaitItem.ofMotor (w : WaitItem) (m : Slot) : Bool :=
  match w.req with
  | .motor k _ _ _ => k == m
  | .bus => false

/-- A placed or waiting request cancelled (R117); a frozen one no longer belongs to the step in force (R80). -/
def Request.cancel (r : Request) : Request :=
  { r with status := if r.status = .waiting then .missed else r.status, inStep := false }

/-- R117: every request of the motor that is placed or waiting is resolved MISSED with reason STATE. -/
def Part.cancelUnfrozen (p : Part) (m : Slot) : Part :=
  (p.modMotor m fun q =>
      { q with
        samp := { q.samp with missedState := bumpBy q.samp.missedState q.scheds.unfrozen }
        scheds := q.scheds.mapReqs Request.cancel }).modSampler
    fun sa => { sa with waiting := sa.waiting.filter fun w => !w.ofMotor m }

/-! ## Leaving RUNNING or START_PENDING -/

/-- R46: the queue is flushed. -/
def SetQueue.flush (s : SetQueue) : SetQueue :=
  { s with recs := [], overrunFlag := false, staleFlag := false, starved := 0 }

/-- R28: what takes effect when a motor leaves RUNNING or START_PENDING for `st`, but for the gates. A frozen request
is no longer one whose motor has stayed RUNNING (R119). -/
def Part.leaveRun (p : Part) (m : Slot) (st : MotorState) (cause : Option StopCause) : Part :=
  (p.cancelUnfrozen m).modMotor m fun q =>
    { q with
      slot := { q.slot with state := st, park := false, stopCause := cause, start := none }
      pace := { q.pace with trim := 0, carrier := none }
      setq := q.setq.flush
      planner := { q.planner with last := none, prev := none }
      seqr := { q.seqr with run := none }
      scheds := q.scheds.mapReqs fun r => { r with stayed := false } }

/-- R27: a SAFE_STOP request of a cause for a motor. -/
def Part.safeStop (p : Part) (cause : StopCause) (m : Slot) : Part :=
  match (p.motor m).slot.state with
  | .running | .startPending =>
    ((p.leaveRun m .safeStop (some cause)).modMotor m (·.safeAction p.now)).notice (.safeStop m cause)
  | .off | .ready | .safeStop | .tripped | .lockedOut => p

/-! ## Trips -/

/-- What a trip event hands over (R141, R142, R143). -/
structure TripEvent where
  cause : FaultCause
  period : Option Byte
  value : Int
  phase : Option Phase
  deriving DecidableEq, Repr

/-- The motor's trip count for the cause raised by one (R143). -/
def MotorProt.countTrip (t : MotorProt) : FaultCause → MotorProt
  | .ocPin => { t with ocTrips := bump t.ocTrips }
  | .current => { t with currentTrips := bump t.currentTrips }
  | .stall => { t with stallTrips := bump t.stallTrips }
  | .table => { t with tableTrips := bump t.tableTrips }

/-- The record of a first trip (R143). -/
def TripEvent.record (e : TripEvent) (now : Tick) : FaultRecord :=
  { cause := e.cause, instant := now, period := e.period, value := e.value, phase := e.phase, second := none }

/-- The motor after its first trip: TRIPPED, its record filled, the trip action carried out, the trip counted (R31,
R143). -/
def Motor.tripped (q : Motor) (e : TripEvent) (now : Tick) : Motor :=
  let q := q.tripAction e.cause now
  { q with
    slot := { q.slot with state := .tripped, stopCause := none, fault := some (e.record now) }
    prot := q.prot.countTrip e.cause }

/-- The record with its second cause (R144). -/
def FaultRecord.extend (r : FaultRecord) (e : TripEvent) (now : Tick) : FaultRecord :=
  { r with second := some { cause := e.cause, instant := now, value := e.value, phase := e.phase } }

/-- R144: the motor after a trip event in TRIPPED. -/
def Motor.lockedOut (q : Motor) (e : TripEvent) (now : Tick) : Motor :=
  let q := q.allOff now
  { q with
    slot := { q.slot with state := .lockedOut, fault := q.slot.fault.map (·.extend e now) }
    prot := { q.prot.countTrip e.cause with lockouts := bump q.prot.lockouts } }

/-- The motor's fault slot takes the motor's record, if it has one (R132). -/
def Part.reportFault (p : Part) (m : Slot) : Part :=
  match (p.motor m).slot.fault with
  | some r => p.fillFaultSlot m r
  | none => p

/-- A trip event for a motor, judged in the motor's state (R31, R140, R142 to R144): OC_PIN in RUNNING, START_PENDING,
SAFE_STOP or TRIPPED; every other cause in RUNNING only. -/
def Part.trip (p : Part) (e : TripEvent) (m : Slot) : Part :=
  match (p.motor m).slot.state with
  | .running => ((p.leaveRun m .tripped none).modMotor m (·.tripped e p.now)).reportFault m
  | .startPending =>
    if e.cause = .ocPin then ((p.leaveRun m .tripped none).modMotor m (·.tripped e p.now)).reportFault m else p
  | .safeStop => if e.cause = .ocPin then (p.modMotor m (·.tripped e p.now)).reportFault m else p
  | .tripped => if e.cause = .ocPin then (p.modMotor m (·.lockedOut e p.now)).reportFault m else p
  | .off | .ready | .lockedOut => p

/-- The last period begun in the motor's current run (R143). -/
def Motor.lastPeriod (q : Motor) : Option Byte := q.pace.carrier.map (·.period)

/-- A TABLE trip of a motor for the word at a position (R142). -/
def Part.tableTrip (p : Part) (pos : Fin 82) (m : Slot) : Part :=
  if p.running m then p.trip { cause := .table, period := (p.motor m).lastPeriod, value := pos.val, phase := none } m else p

end Sys2Proof.Machine
end

