-- ==== Sys2Proof/Machine/Store.lean ====
section
/-! DEFINITION. The table store (chapter 10): reading through the store with correction and invalidation (R157, R158),
readers that act for a motor (R142), records, the scrubber's step (R159), and storing words (R155 step 5). -/

namespace Sys2Proof.Machine

def Store.word (st : Store) (pos : Fin 82) : StoreWord := st.words[pos]

def Store.setWord (st : Store) (pos : Fin 82) (w : StoreWord) : Store := { st with words := st.words.set pos w }

/-- R152: every word of the record has its valid mark. -/
def Store.recordValid (st : Store) (r : RecordId) : Bool := r.positions.all fun pos => (st.word pos).valid

/-- R157: two disturbed bits, or a check code of another position (R152), cannot be corrected. -/
def StoreWord.broken (w : StoreWord) (pos : Fin 82) : Bool := w.flips == .two || w.codePos != pos.val

/-- R157: one disturbed bit: the corrected word is written back and counted. -/
def Store.correct (st : Store) (pos : Fin 82) : Store :=
  { st.setWord pos { st.word pos with flips := .whole } with
    corrected := bumpByte st.corrected, lastCorrected := some pos.val }

/-- R158: the valid mark cleared, the word counted. -/
def Store.invalidate (st : Store) (pos : Fin 82) : Store :=
  { st.setWord pos { st.word pos with valid := false } with
    uncorrectable := bumpByte st.uncorrectable, lastUncorrectable := some pos.val }

/-- R158: a read finds a word uncorrectable: it is made invalid with a TABLE_INVALID notice, and the region's RUNNING
motors trip (R142). -/
def Part.uncorrectable (p : Part) (pos : Fin 82) : Part :=
  let p := (p.modStore (·.invalidate pos)).notice (.tableInvalid (regionIndex pos).1 (regionIndex pos).2)
  match ownerOf pos with
  | .config => p.eachMotor fun m p => p.tableTrip pos m
  | .accept => p
  | .motor m => p.tableTrip pos m

/-- R157: a read of a word through the store; the fields, or none when the word is invalid or found uncorrectable. -/
def Part.readWord (p : Part) (pos : Fin 82) : Option (List Nat) × Part :=
  let w := p.store.word pos
  if !w.valid then (none, p)
  else if w.broken pos then (none, p.uncorrectable pos)
  else
    match w.flips with
    | .one => (some w.fields, p.modStore (·.correct pos))
    | .whole | .two => (some w.fields, p)

/-- R142: a read by a reader acting for RUNNING motor m; a word that is invalid, or found uncorrectable, trips the
motor. -/
def Part.readFor (p : Part) (m : Slot) (pos : Fin 82) : Option (List Nat) × Part :=
  match p.readWord pos with
  | (some fs, p) => (some fs, p)
  | (none, p) => (none, p.tableTrip pos m)

/-- R142: several words read for a motor, in order; the reading stops at the first that gives no data. -/
def Part.readAllFor (p : Part) (m : Slot) : List (Fin 82) → Option (List (List Nat)) × Part
  | [] => (some [], p)
  | pos :: rest =>
    match p.readFor m pos with
    | (none, p) => (none, p)
    | (some fs, p) =>
      match p.readAllFor m rest with
      | (none, p) => (none, p)
      | (some more, p) => (some (fs :: more), p)

/-- Words read one after another, whatever they give (R20, R146, R155, R160). -/
def Part.readWords (p : Part) : List (Fin 82) → Part
  | [] => p
  | pos :: rest => (p.readWord pos).2.readWords rest

/-- The words of CONFIG, PROFILE m and PLAN m, in that order, each record word 0 first (R20, R22, R146; log 10). -/
def motorRecords (m : Slot) : List (Fin 82) :=
  RecordId.config.positions ++ (RecordId.profile m).positions ++ (RecordId.plan m).positions

/-- CONFIG, PROFILE m and PLAN m are all valid (R20). -/
def Store.motorValid (st : Store) (m : Slot) : Bool :=
  st.recordValid .config && st.recordValid (.profile m) && st.recordValid (.plan m)

/-- Words of CONFIG read for a block of the part (R6, R121, R134, R148): their fields when CONFIG is valid after the
reads, none otherwise. DESIGN CHOICE (log 27): every one of the words is read, also after one that gave no data and where
CONFIG is not valid to begin with. -/
def Part.readConfig (p : Part) (ks : List Nat) : Option (List (List Nat)) × Part :=
  let p := p.readWords (ks.map RecordId.config.pos)
  if p.store.recordValid .config then (some (ks.map fun k => (p.store.word (RecordId.config.pos k)).fields), p)
  else (none, p)

/-- R155 step 5: a word stored with a new check code and its valid mark set. -/
def Store.put (st : Store) (pos : Fin 82) (fs : List Nat) : Store :=
  st.setWord pos { fields := fs, codePos := pos.val, flips := .whole, valid := true }

/-- The fields of a record's words as they stand. -/
def Store.fieldsOf (st : Store) (r : RecordId) : List (List Nat) := r.positions.map fun pos => (st.word pos).fields

/-- R159: the scrubber reads the word at its position and moves on, counting a pass from 81 to 0. -/
def Part.scrub (p : Part) : Part :=
  let pos := p.store.scrubPos
  (p.readWord pos).2.modStore fun st =>
    { st with
      scrubPos := pos + 1
      passes := if pos.val = 81 then bump st.passes else st.passes }

end Sys2Proof.Machine
end

