-- ==== Sys2Proof/Machine/Timebase.lean ====
section
/-! DEFINITION. The timebase (chapter 1): ticks passing (R1, R2), the cycle-sync input and its evaluation (R4 to R7),
pending trim (R8, R12), the end of a master cycle (R2) and its restart (R3), and the bus supervisor's request in a cycle
(R121). The commands' meanings stand in Machine/Clock.lean and Machine/Sampling.lean. -/

namespace Sys2Proof.Machine

/-! ## Ticks -/

/-- n ticks pass: the master tick and the position count on (R1, R2). At the tick after position L_m - 1 the cycle end
falls due; until it is taken the position stays L_m - 1 (R4; log 1). -/
def Timebase.pass (t : Timebase) (n : Nat) : Timebase :=
  if t.pos + n < t.len then { t with tick := later t.tick n, pos := t.pos + n }
  else { t with tick := later t.tick n, pos := t.len - 1, endDue := true }

/-- n ticks pass for a motor: its gates (log 5); a START_PENDING motor's own entry instant is past (R10, log 4). -/
def Motor.pass (q : Motor) (now : Tick) (n : Nat) : Motor :=
  { q with
    gates := q.gates.pass now n
    slot := { q.slot with start := q.slot.start.map fun w => { w with taken := w.taken && n == 0 } } }

/-- n ticks pass for the part. -/
def Part.pass (p : Part) (n : Nat) : Part :=
  { p with tb := p.tb.pass n, motors := p.motors.map fun (q : Motor) => q.pass p.now n }

/-! ## Cycle sync -/

/-- R4: the first edge of a cycle is its capture; a further one raises the tally. -/
def Timebase.syncEdge (t : Timebase) : Timebase :=
  match t.capture with
  | none => { t with capture := some t.pos }
  | some _ => { t with tally := bump t.tally }

/-- R5: the error of a capture, brought into -P/2 + 1 to P/2. -/
def syncError (p q syncPos : Nat) : Int :=
  let e : Int := (q : Int) - syncPos
  if e > (p / 2 : Nat) then e - p else if e ≤ -((p / 2 : Nat) : Int) then e + p else e

/-- R5's table: the adjustment for an error. -/
def syncAdjust (err : Int) (capture jump : Nat) : Int :=
  if err.natAbs ≤ capture then clampInt (-(jump : Int)) jump err else if err > 0 then jump else -(jump : Int)

/-- R6: a cycle end without an evaluated capture. -/
def Timebase.notEvaluated (t : Timebase) : Timebase := { t with lastAdj := 0, run := 0 }

/-- R5, R7: a capture evaluated. -/
def Timebase.evaluated (t : Timebase) (err : Int) (capture jump : Nat) : Timebase :=
  { t with
    lastErr := err
    lastAdj := syncAdjust err capture jump
    extras := bumpBy t.extras t.tally
    run := if err.natAbs ≤ capture then min (t.run + 1) 4 else 0
    slips := if err.natAbs ≤ capture then t.slips else bump t.slips }

/-- The sync tracker at a master-cycle end (R5, R6): word 1 of CONFIG gives the enable and SYNC_POS; word 2 is read when
a capture is evaluated (log 10). The adjustment is the last adjustment it leaves. -/
def Part.syncTrack (p : Part) : Part :=
  match p.readConfig [1] with
  | (none, p) => p.modTb Timebase.notEvaluated
  | (some ws, p) =>
    if recField ws 0 0 = 0 then p.modTb Timebase.notEvaluated
    else
      match p.tb.capture with
      | none => p.modTb fun t => { t.notEvaluated with missing := bump t.missing }
      | some q =>
        match p.readConfig [2] with
        | (none, p) => p.modTb Timebase.notEvaluated
        | (some vs, p) =>
          let err := syncError p.tb.p q (recField ws 0 1)
          let p := p.modTb fun t => t.evaluated err (recField vs 0 0) (recField vs 0 1)
          if err.natAbs ≤ recField vs 0 0 then p else p.notice (.syncSlip err)

/-! ## Trim -/

/-- R8: an adjustment added to a pending trim. -/
def Pace.addTrim (t : Pace) (adj : Int) : Pace :=
  { t with
    trim := clampInt (-1023) 1023 (t.trim + adj)
    trimLoss := if t.trim + adj < -1023 ∨ 1023 < t.trim + adj then bump t.trimLoss else t.trimLoss }

/-- R8: the motors that receive an adjustment. -/
def MotorState.followsTrim : MotorState → Bool
  | .startPending | .running => true
  | .off | .ready | .safeStop | .tripped | .lockedOut => false

def Part.distribute (p : Part) (adj : Int) : Part :=
  { p with
    motors := p.motors.map fun (q : Motor) => if q.slot.state.followsTrim then q.modPace (·.addTrim adj) else q }

/-- R12, steps 1 and 2: the trim applied at a valley, from the pending trim, P and the figure E. -/
def appliedTrim (trim : Int) (p figE : Nat) : Int :=
  let c := clampInt (-255) 255 trim
  if c < 0 then max c ((figE : Int) + 1 - p) else c

/-! ## The end and the restart of a cycle -/

/-- A new master cycle of length P + adj, with no capture and a tally of 0 (R2, R4). -/
def Timebase.newCycle (t : Timebase) (adj : Int) : Timebase :=
  { t with pos := 0, len := ((t.p : Int) + adj).toNat, endDue := false, capture := none, tally := 0 }

/-- R121: a cycle that ends before it has reached BUS_POS is counted; the next one has BUS_POS to read. -/
def Sampler.nextCycle (s : Sampler) : Sampler :=
  { s with
    busPlan := .unread
    busMissed := match s.busPlan with
      | .at _ => bump s.busMissed
      | .unread | .done => s.busMissed }

/-- The scrubber's read finds a disturbed word: it corrects it or makes it invalid. The read meets the other work of the
cycle end in either order (R159), and only then can the order show: in the last corrected position, in a word that the
tracker no longer finds, in the order of trips and notices. -/
def Part.scrubActs (p : Part) : Bool :=
  let w := p.store.word p.store.scrubPos
  w.valid && (w.flips != .whole || w.broken p.store.scrubPos)

/-- The work of a master-cycle end but for the scrubber (R2): the tracker, the distribution, the new cycle. -/
def Part.turnCycle (p : Part) : Part :=
  let p := p.syncTrack
  ((p.distribute p.tb.lastAdj).modTb fun t => t.newCycle t.lastAdj).modSampler Sampler.nextCycle

/-- MASTER_CYCLE_END (R2), the scrubber's read in either order (R159; log 3). -/
def Part.cycleEnd (p : Part) : Part :=
  if p.scrubActs then
    match p.flip with
    | (true, p) => p.scrub.turnCycle
    | (false, p) => p.turnCycle.scrub
  else p.turnCycle.scrub

/-- R122: a waiting bus request resolved MISSED. -/
def Sampler.missBus (s : Sampler) : Sampler :=
  { s with
    waiting := s.waiting.filter (·.req != .bus)
    busReq := .absent
    busMissed := bump s.busMissed }

/-- R3: the master cycle restarts with a new P; a waiting bus request is MISSED (R122); BUS_POS is read again (R121). -/
def Part.restartCycle (p : Part) (newP : Nat) : Part :=
  (p.modTb fun t => { t.newCycle 0 with p := newP, len := newP, run := 0, lastAdj := 0 }).modSampler fun s =>
    let s := match s.busReq with
      | .waiting _ _ _ => s.missBus
      | .absent | .frozen => s
    { s with busPlan := .unread }

/-! ## The bus request -/

/-- R121: no request in this cycle; counted. -/
def Sampler.noBusRequest (s : Sampler) : Sampler := { s with busPlan := .done, busMissed := bump s.busMissed }

/-- R121: the request is placed and joins the waiting list at once. -/
def Sampler.placeBus (s : Sampler) (now : Tick) (channel : Fin 16) (span : Nat) : Sampler :=
  { s.joinList { req := .bus, holds := 1, planned := now, latest := later now span, motorPriority := 0, priority := 0 } with
    busPlan := .done
    busReq := .waiting channel now (later now span) }

/-- R121: the placement at BUS_POS, with BUS_SPAN and the bus channel read there. -/
def Part.placeBus (p : Part) : Part :=
  match p.readConfig [3, 4] with
  | (none, p) => p.modSampler Sampler.noBusRequest
  | (some ws, p) => p.modSampler fun s => s.placeBus p.now (analogInput (recField ws 0 0)) (recField ws 1 0)

/-- R121: the read of BUS_POS at position 0, and the placement. -/
def Part.busPlace (p : Part) : Part :=
  match p.sampler.busPlan with
  | .unread =>
    match p.readConfig [3] with
    | (none, p) => p.modSampler Sampler.noBusRequest
    | (some ws, p) =>
      if recField ws 0 1 = p.tb.pos then p.placeBus
      else p.modSampler fun s => { s with busPlan := .at (recField ws 0 1) }
  | .at _ => p.placeBus
  | .done => p

end Sys2Proof.Machine
end

