-- ==== Sys2Proof/Machine/Planner.lean ====
section
/-! DEFINITION. The edge planner's arithmetic (chapter 4): widths (R51, R52), pulses (R53), link-shunt windows and
shifts (R58 to R62), the edge list (R54, R55), the valley levels (R56) and the figure E (R63). Everything is in carrier
time. Machine/Valley.lean takes the planner's inputs and keeps its results. -/

namespace Sys2Proof.Machine

/-- R51: the width of a duty, to the nearest tick, a half rounding up. -/
def widthOf (duty p : Nat) : Nat := (duty * p + 16384) / 32768

/-- R52, the rows in order (log 17). -/
def clampWidth (w p pmin : Nat) : Nat := if w < pmin then 0 else if w + pmin ≤ p then w else p

/-- R53. -/
def pulseOf (w p : Nat) : Pulse := { w := w, s := (p - w) / 2, e := (p - w) / 2 + w }

/-- 0 < w < P: a partial pulse. -/
def Pulse.isPartial (u : Pulse) (p : Nat) : Bool := decide (0 < u.w) && decide (u.w < p)

/-- R50: the class of a width. -/
def widthClass (w p : Nat) : WidthClass := if w = 0 then .empty else if w = p then .full else .between

/-- What the planner takes in at a valley (R49): P in force, DT, PMIN, ST, SHMAX, and which link windows are due (R58). -/
structure PlanInput where
  p : Nat
  dt : Nat
  pmin : Nat
  st : Nat
  shmax : Nat
  dueA : Bool
  dueB : Bool
  deriving DecidableEq, Repr

/-- R58: the phases by clamped width, largest first; of equal widths the lower index counts as larger. -/
def maxPhase (w : PerPhase Nat) : Phase :=
  if w.v ≤ w.u ∧ w.w ≤ w.u then .u else if w.w ≤ w.v then .v else .w

def minPhase (w : PerPhase Nat) : Phase :=
  if w.w ≤ w.u ∧ w.w ≤ w.v then .w else if w.v ≤ w.u then .v else .u

/-- The phase that is neither of two different ones. -/
def thirdPhase (x y : Phase) : Phase :=
  if x ≠ .u ∧ y ≠ .u then .u else if x ≠ .v ∧ y ≠ .v then .v else .w

def midPhase (w : PerPhase Nat) : Phase := thirdPhase (maxPhase w) (minPhase w)

/-- R59: the spacing G. -/
def PlanInput.spacing (i : PlanInput) : Nat := i.dt + i.st + Config.acquisition + 1

/-- A shift decided: its ticks when it is applied, and whether it was refused. -/
structure Shift where
  ticks : Nat
  refused : Bool
  deriving DecidableEq, Repr

/-- The three conditions on a shift that is needed (R60, R61). -/
def decideShift (need : Nat) (shmax : Nat) (fits : Bool) : Shift :=
  if need = 0 then ⟨0, false⟩
  else if 0 < shmax ∧ need ≤ shmax ∧ fits = true then ⟨need, false⟩
  else ⟨0, true⟩

/-- R59: window A exists. -/
def existsA (i : PlanInput) (mx : Pulse) : Bool := mx.isPartial i.p

/-- R59: window B exists. -/
def existsB (i : PlanInput) (mx mid : Pulse) : Bool := mid.isPartial i.p && decide (0 < mx.w)

/-- R60: shift A, from the pulses as R53 placed them. -/
def shiftA (i : PlanInput) (mx mid : Pulse) : Shift :=
  if i.dueA && existsA i mx && decide (0 < mid.w) then
    let need := i.spacing - (mid.s - mx.s)
    decideShift need i.shmax (decide (need ≤ mx.s))
  else ⟨0, false⟩

/-- R61: shift B, from the pulses as R53 placed them. -/
def shiftB (i : PlanInput) (mx mid mn : Pulse) : Shift :=
  if i.dueB && existsB i mx mid && decide (0 < mn.w) then
    let need := i.spacing - (mn.s - mid.s)
    decideShift need i.shmax (decide (mn.e + need + i.dt + 2 ≤ i.p))
  else ⟨0, false⟩

/-- A whole pulse moved earlier (R60) or later (R61); its width is unchanged. -/
def Pulse.earlier (u : Pulse) (n : Nat) : Pulse := { u with s := u.s - n, e := u.e - n }

def Pulse.later (u : Pulse) (n : Nat) : Pulse := { u with s := u.s + n, e := u.e + n }

/-- R59: the transition instants of the period. -/
def transitions (p : Nat) (pulse : PerPhase Pulse) : List Nat :=
  ((pulse.toList.filter (·.isPartial p)).map fun u => [u.s, u.e]).flatten

/-- R59: the earliest transition later than an opening; none when there is none. -/
def nextTransition (p : Nat) (pulse : PerPhase Pulse) (opening : Nat) : Option Nat :=
  ((transitions p pulse).filter (opening < ·)).min?

/-- R59, R62: the valid interval of a window that opens at an instant, first and last hold instant; none when it is
empty. -/
def windowFrom (i : PlanInput) (pulse : PerPhase Pulse) (opening : Nat) : Option (Nat × Nat) :=
  let first := opening + i.dt + i.st + Config.acquisition
  match nextTransition i.p pulse opening with
  | some c1 => if first + 1 ≤ c1 then some (first, c1 - 1) else none
  | none => none

/-- R55: before in the order of the edge list: instant, then phase, then LOW before HIGH. -/
def Edge.before (a b : Edge) : Bool :=
  if a.carrierTime ≠ b.carrierTime then decide (a.carrierTime < b.carrierTime)
  else if a.phase ≠ b.phase then decide (a.phase.toNat < b.phase.toNat)
  else a.switch == .low && b.switch == .high

/-- An edge put in its place; behind those it is not before. -/
def insertEdge (a : Edge) : List Edge → List Edge
  | [] => [a]
  | b :: l => if a.before b then a :: b :: l else b :: insertEdge a l

/-- The edges in the order of R55. -/
def sortEdges (l : List Edge) : List Edge := l.foldl (fun acc a => insertEdge a acc) []

/-- R54: the four edges of a partial phase; none of an empty or a full one. -/
def phaseEdges (p dt : Nat) (x : Phase) (u : Pulse) : List Edge :=
  if u.isPartial p then
    [⟨u.s, x, .low, false, false⟩, ⟨u.s + dt, x, .high, true, false⟩, ⟨u.e, x, .high, false, false⟩,
     ⟨u.e + dt, x, .low, true, false⟩]
  else []

/-- R55: the edge list of a SINE period. -/
def sineEdges (p dt : Nat) (pulse : PerPhase Pulse) : List Edge :=
  sortEdges ((Phase.all.map fun x => phaseEdges p dt x (pulse.get x)).flatten)

/-- R63: the largest e + DT over the partial phases, or P/2. -/
def figureE (p dt : Nat) (pulse : PerPhase Pulse) : Nat :=
  (((pulse.toList.filter (·.isPartial p)).map fun u => u.e + dt).max?).getD (p / 2)

/-- R56: the valley level of a phase. -/
def sineLevel (p : Nat) (u : Pulse) : PhaseLevel :=
  if u.w = 0 then ⟨true, false⟩
  else if u.isPartial p then ⟨decide (0 < u.s), false⟩
  else ⟨false, true⟩

/-- What the planner makes of a period. -/
structure SinePlan where
  pulse : PerPhase Pulse
  mx : Phase
  mn : Phase
  a : Shift
  b : Shift
  winA : Option (Nat × Nat)
  winB : Option (Nat × Nat)
  figE : Nat
  edges : List Edge
  zeros : Nat
  fulls : Nat
  deriving DecidableEq, Repr

/-- How many phases R52 clamped to a value they did not have. -/
def clamped (raw now : PerPhase Nat) (v : Nat) : Nat :=
  (List.zipWith (fun a b => if b = v ∧ a ≠ v then 1 else 0) raw.toList now.toList).sum

/-- The planner's work at a valley, in the order of R49: width, clamp, start and end, shifts, edge list, figure E. -/
def planSine (i : PlanInput) (duty : PerPhase Nat) : SinePlan :=
  let raw := duty.map (widthOf · i.p)
  let w := raw.map (clampWidth · i.p i.pmin)
  let placed := w.map (pulseOf · i.p)
  let mx := maxPhase w
  let mid := midPhase w
  let mn := minPhase w
  let a := shiftA i (placed.get mx) (placed.get mid)
  let b := shiftB i (placed.get mx) (placed.get mid) (placed.get mn)
  let pulse := (placed.set mx ((placed.get mx).earlier a.ticks)).set mn ((placed.get mn).later b.ticks)
  { pulse := pulse, mx := mx, mn := mn, a := a, b := b
    winA := if i.dueA && existsA i (placed.get mx) && !a.refused then windowFrom i pulse (pulse.get mx).s else none
    winB := if i.dueB && existsB i (placed.get mx) (placed.get mid) && !b.refused then windowFrom i pulse (pulse.get mid).s else none
    figE := figureE i.p i.dt pulse
    edges := sineEdges i.p i.dt pulse
    zeros := clamped raw w 0
    fulls := clamped raw w i.p }

end Sys2Proof.Machine
end

