-- ==== Sys2Proof/Machine/Sequencer.lean ====
section
/-! DEFINITION. The commutation sequencer (chapter 5): steps and roles (R71), the pulse and its edges (R72, R74), crossing
detection (R80 to R82), timing (R76 to R79, R83 to R85), and carrying out a commutation (R87 to R90). The commands'
meanings stand in Machine/Commutation.lean. -/

namespace Sys2Proof.Machine

/-! ## Steps -/

/-- R71: who is pulsed, low and floating in a step. -/
structure Roles where
  pulsed : Phase
  low : Phase
  floating : Phase
  deriving DecidableEq, Repr

def rolesOf (step : Fin 6) : Roles :=
  match step with
  | 0 => ⟨.u, .v, .w⟩
  | 1 => ⟨.u, .w, .v⟩
  | 2 => ⟨.v, .w, .u⟩
  | 3 => ⟨.v, .u, .w⟩
  | 4 => ⟨.w, .u, .v⟩
  | 5 => ⟨.w, .v, .u⟩

/-- R71: the expected crossing of a step is rising. -/
def risingExpected (dir : Direction) (step : Fin 6) : Bool :=
  match dir with
  | .forward => step.val % 2 == 1
  | .reverse => step.val % 2 == 0

/-- R71: the step after a commutation. -/
def nextStep (dir : Direction) (step : Fin 6) : Fin 6 :=
  match dir with
  | .forward => step + 1
  | .reverse => step + 5

/-! ## Edges -/

/-- The carrier time at which an edge is made in a period of length L (R57): its own instant, or L - 1 for one that a
negative trim leaves at or after the period's end (R13). -/
def Edge.dueAt (e : Edge) (len : Nat) : Nat := min e.carrierTime (len - 1)

/-- An edge's change requested of the gate output stage (R57, R68). -/
def GateStage.request (st : GateStage) (now : Tick) (dt : Nat) (e : Edge) : GateStage :=
  if e.on then st.turnOn now dt true e.phase e.switch else st.turnOff now e.phase e.switch

/-- The edges of a list due at carrier time c, requested together in list order and marked as made (R57). -/
def GateStage.runEdges (now : Tick) (dt c len : Nat) : List Edge → GateStage → List Edge × GateStage
  | [], st => ([], st)
  | e :: l, st =>
    if !e.made && e.dueAt len == c then
      let (l, st) := GateStage.runEdges now dt c len l (st.request now dt e)
      ({ e with made := true } :: l, st)
    else
      let (l, st) := GateStage.runEdges now dt c len l st
      (e :: l, st)

/-- R74: the edge list of a BLOCK period as built at the valley. -/
def blockEdges (p : Nat) (roles : Roles) (u : Pulse) : List Edge :=
  if u.isPartial p then [⟨u.s, roles.pulsed, .high, true, false⟩, ⟨u.e, roles.pulsed, .high, false, false⟩] else []

/-- R72, R74: the level of a phase's gates just after the valley. -/
def blockLevel (p : Nat) (roles : Roles) (u : Pulse) (x : Phase) : PhaseLevel :=
  { low := x == roles.low, high := x == roles.pulsed && u.w == p && decide (0 < u.w) }

/-- R88: the edges a commutation at carrier time c enters in the list. `wasOn` says that the HIGH gate of the phase that
leaves the pulsed role is on, or waits to turn on. -/
def commEdges (p c : Nat) (u : Pulse) (old new : Roles) (wasOn : Bool) : List Edge :=
  (if old.low ≠ new.low then [⟨c, old.low, .low, false, false⟩, ⟨c, new.low, .low, true, false⟩] else []) ++
  (if old.pulsed ≠ new.pulsed then
    (if wasOn then [⟨c, old.pulsed, .high, false, false⟩] else []) ++
    (if u.isPartial p then
      (if max c u.s < u.e then [⟨max c u.s, new.pulsed, .high, true, false⟩] else []) ++
      (if c < u.e then [⟨u.e, new.pulsed, .high, false, false⟩] else [])
    else if u.w = p ∧ 0 < u.w then [⟨c, new.pulsed, .high, true, false⟩] else [])
  else [])

/-- R88: the list after a commutation: edges already made stay; of those not made, the ones of a phase that keeps the
pulsed role are entered again; the commutation's own edges come in the order of R55. -/
def rewriteEdges (p c : Nat) (u : Pulse) (old new : Roles) (wasOn : Bool) (edges : List Edge) : List Edge :=
  sortEdges (edges.filter (fun e => e.made || (old.pulsed == new.pulsed && e.phase == new.pulsed)) ++
    commEdges p c u old new wasOn)

/-- The role changes of a commutation made at a valley instant before the valley is taken (R73, R89): the valley levels
of R74 then settle the pulsed phase. -/
def GateStage.switchRoles (st : GateStage) (now : Tick) (dt : Nat) (old new : Roles) : GateStage :=
  let st := if old.low ≠ new.low then st.turnOff now old.low .low else st
  let st := if old.pulsed ≠ new.pulsed then st.turnOff now old.pulsed .high else st
  if old.low ≠ new.low then st.turnOn now dt true new.low .low else st

/-! ## Commutations -/

/-- The commutation list of a period (R89). -/
def Schedule.comms (sc : Schedule) : List CommEntry :=
  match sc.drive with
  | .block _ _ comms _ => comms
  | .sine _ _ _ => []

def Drive.addComm (d : Drive) (e : CommEntry) : Drive :=
  match d with
  | .block step u comms crossing => .block step u (comms ++ [e]) crossing
  | .sine u a b => .sine u a b

def Drive.setCrossing (d : Drive) : Drive :=
  match d with
  | .block step u comms _ => .block step u comms true
  | .sine u a b => .sine u a b

/-- R77: a RAMP commutation that ends a step without a counted crossing sets the confirm count to 0; R76: T becomes the
next interval. -/
def SubData.afterCommutation (d : SubData) (stepConfirmed : Bool) (rampNext : Option Nat) : SubData :=
  match d with
  | .ramp t confirm hold => .ramp (rampNext.getD t) (if stepConfirmed then confirm else 0) hold
  | .align n => .align n
  | .closed tRef tStep f lost limit => .closed tRef tStep f lost limit

/-- R87, steps 1, 4 and 5: the sequencer after a commutation at the instant `now`; `rampNext` is the next ramp interval
in RAMP. In CLOSED the search timeout is set (R85). -/
def SeqRun.advance (r : SeqRun) (now : Tick) (rampNext : Option Nat) : SeqRun :=
  { r with
    step := nextStep r.dir r.step
    data := r.data.afterCommutation r.stepConfirmed rampNext
    search := some { ref := now, searching := true, prev := none }
    stepConfirmed := false
    sched := rampNext.map fun t => { instant := later now t, kind := .ramp, late := false }
    post := none
    timeout := match r.data with
      | .closed _ tStep _ _ _ => some (later now tStep)
      | .align _ | .ramp _ _ _ => none }

/-- The instant is that of the motor's next valley (R11), which is not taken yet. -/
def Carrier.atNext (c : Carrier) (now : Tick) : Bool := now == later c.valley c.len

/-- The HIGH gate of a phase is on or waits to turn on (R66, R88). -/
def GateStage.highWanted (st : GateStage) (x : Phase) : Bool := (st.gateAt x .high).on || (st.gateAt x .high).pend.isSome

/-- A commutation in the middle of a period (R88, R89): edges rewritten, those at this instant requested, the entry
recorded. -/
def Motor.commutateIn (q : Motor) (pp : Nat) (now : Tick) (c : Carrier) (r : SeqRun) (kind : CommKind) (late : Bool)
    (rampNext : Option Nat) : Motor :=
  let ct := ticksFrom now c.valley
  let old := rolesOf r.step
  let r' := r.advance now rampNext
  let new := rolesOf r'.step
  match q.scheds.latest with
  | none => { q with seqr := { q.seqr with run := some r' } }
  | some sc =>
    let edges := rewriteEdges pp ct r.pulse old new (q.gates.highWanted old.pulsed) sc.edges
    let (edges, gates) := GateStage.runEdges now q.dt ct c.len edges q.gates
    let entry : CommEntry := { carrierTime := ct, step := r'.step, kind := kind, late := late, postponed := false }
    { q with
      gates := gates
      seqr := { q.seqr with run := some r' }
      scheds := { q.scheds with latest := some { sc with edges := edges, drive := sc.drive.addComm entry } } }

/-- A commutation at a valley instant, the valley not taken yet (R73 step 1, R89): its entry waits for the period that
the valley opens. -/
def Motor.commutateAtValley (q : Motor) (now : Tick) (r : SeqRun) (kind : CommKind) (late postponed : Bool)
    (rampNext : Option Nat) : Motor :=
  let r' := r.advance now rampNext
  let entry : CommEntry := { carrierTime := 0, step := r'.step, kind := kind, late := late, postponed := postponed }
  { q with
    gates := q.gates.switchRoles now q.dt (rolesOf r.step) (rolesOf r'.step)
    seqr := { q.seqr with run := some { r' with opening := r.opening ++ [entry] } } }

/-- R76: the ramp count. -/
def Sequencer.countKind (s : Sequencer) (kind : CommKind) : Sequencer :=
  if kind = .ramp then { s with ramps := bump s.ramps } else s

/-- R87: a commutation is made. -/
def Part.makeCommutation (p : Part) (m : Slot) (kind : CommKind) (late postponed : Bool) (rampNext : Option Nat) : Part :=
  match (p.motor m).seqr.run, (p.motor m).pace.carrier with
  | some r, some c =>
    (p.cancelUnfrozen m).modMotor m fun q =>
      let q := q.modSeqr (·.countKind kind)
      if postponed || c.atNext p.now then q.commutateAtValley p.now r kind late postponed rampNext
      else q.commutateIn p.tb.p p.now c r kind late rampNext
  | _, _ => p

/-- R76: the next ramp interval from T, with RAMP_RATE and T_HANDOVER read for the motor. -/
def Part.rampInterval (p : Part) (m : Slot) (t : Nat) : Option Nat × Part :=
  match p.readAllFor m [(RecordId.profile m).pos 11, (RecordId.profile m).pos 12] with
  | (some ws, p) => (some (max (recField ws 1 0) (t - t * recField ws 0 1 / 256)), p)
  | (none, p) => (none, p)

/-- A commutation made, its RAMP interval computed first (R76). -/
def Part.makeWithInterval (p : Part) (m : Slot) (kind : CommKind) (late postponed : Bool) : Part :=
  match kind, (p.motor m).seqr.run.map SeqRun.data with
  | CommKind.ramp, some (SubData.ramp t _ _) =>
    match p.rampInterval m t with
    | (some next, p) => p.makeCommutation m kind late postponed (some next)
    | (none, p) => p
  | _, _ => p.makeCommutation m kind late postponed none

/-- R89: a commutation that comes due with the period's list full is postponed to the next valley. -/
def Part.postpone (p : Part) (m : Slot) (kind : CommKind) (late : Bool) : Part :=
  p.modMotor m fun q =>
    q.modSeqr fun s =>
      { s with
        postponed := bump s.postponed
        run := s.run.map fun r =>
          { r with
            post := some { kind := kind, late := late }
            sched := none
            timeout := none
            search := r.search.map fun se => { se with searching := false } } }

/-- R89: the list of the period in force is full, and the instant is not that of the next valley. -/
def Motor.listFull (q : Motor) (now : Tick) : Bool :=
  (match q.scheds.latest with
    | some sc => decide (2 ≤ sc.comms.length)
    | none => false) &&
    (match q.pace.carrier with
      | some c => !c.atNext now
      | none => false)

/-- A commutation comes due (R87, R89). -/
def Part.commutate (p : Part) (m : Slot) (kind : CommKind) (late : Bool) : Part :=
  if (p.motor m).listFull p.now then p.postpone m kind late else p.makeWithInterval m kind late false

/-- R78, R85: a STALL trip with the count reached and the floating phase of the step in force. -/
def Part.stall (p : Part) (m : Slot) (step : Fin 6) (count : Nat) : Part :=
  p.trip { cause := .stall, period := (p.motor m).lastPeriod, value := count, phase := some (rolesOf step).floating } m

/-! ## Crossings -/

/-- R80: the crossing value of the floating-phase and bus codes. -/
def crossingValue (float bus : Code) : Int := (float.toNat : Int) - (bus.toNat / 2 : Nat)

/-- What a valid sample shows (R81). -/
inductive Crossing where
  | no
  | early (tzc : Tick)
  | between (tzc : Tick)
  deriving DecidableEq, Repr

/-- R82. -/
def interpolate (prev : PrevSample) (x : Int) (now : Tick) : Tick :=
  later prev.instant (ticksFrom now prev.instant * prev.x.natAbs / (prev.x.natAbs + x.natAbs))

/-- R81's table. -/
def judgeCrossing (rising : Bool) (prev : Option PrevSample) (x : Int) (now : Tick) : Crossing :=
  if (if rising then decide (0 ≤ x) else decide (x ≤ 0)) then
    match prev with
    | none => .early now
    | some s => .between (interpolate s x now)
  else .no

def Part.modRun (p : Part) (m : Slot) (f : SeqRun → SeqRun) : Part :=
  p.modMotor m fun q => q.modSeqr fun s => { s with run := s.run.map f }

/-- R84: the DETECTED commutation is scheduled; one whose instant is this one, or is past (LATE), is made at once. -/
def Part.scheduleDetected (p : Part) (m : Slot) (tzc : Tick) (tStep adv : Nat) : Part :=
  let instant := later tzc (tStep * (16 - adv) / 32)
  if instant = p.now then p.commutate m .detected false
  else if atOrAfter instant p.now then
    p.modRun m fun r => { r with sched := some { instant := instant, kind := .detected, late := false } }
  else (p.modMotor m fun q => q.modSeqr fun s => { s with late := bump s.late }).commutate m .detected true

/-- R79: the handover to CLOSED at this instant. -/
def Part.handover (p : Part) (m : Slot) (t : Nat) (tzc : Tick) : Part :=
  match p.readFor m ((RecordId.profile m).pos 9) with
  | (none, p) => p
  | (some fs, p) =>
    (p.modRun m fun r => { r with data := .closed tzc t 0 0 (field fs 1), sched := none }).scheduleDetected m tzc t (field fs 0)

/-- R77: a crossing that is not EARLY in RAMP. -/
def Part.confirmCrossing (p : Part) (m : Slot) (t confirm hold : Nat) (tzc : Tick) : Part :=
  let p := p.modRun m fun r => { r with data := .ramp t (min (confirm + 1) 15) hold, stepConfirmed := true }
  match p.readFor m ((RecordId.profile m).pos 12) with
  | (none, p) => p
  | (some fs, p) => if field fs 1 ≤ confirm + 1 then p.handover m t tzc else p

/-- R83: the step interval of a crossing in CLOSED. -/
def stepInterval (tzc tRef : Tick) (f tMin tMax : Nat) : Nat := max tMin (min tMax (ticksFrom tzc tRef / (1 + f)))

/-- R83, R84: a crossing in CLOSED. -/
def Part.closedCrossing (p : Part) (m : Slot) (tRef : Tick) (f : Nat) (tzc : Tick) : Part :=
  let w := (RecordId.profile m).pos
  match p.readAllFor m [w 13, w 14, w 9] with
  | (none, p) => p
  | (some ws, p) =>
    let tStep := stepInterval tzc tRef f (recField ws 0 0) (recField ws 1 0)
    (p.modRun m fun r =>
      { r with data := .closed tzc tStep 0 0 (recField ws 2 1), timeout := none }).scheduleDetected m tzc tStep (recField ws 2 0)

/-- The crossing-detected flag set in the schedule of a serial number (R81). -/
def Schedules.setCrossing (s : Schedules) (id : Nat) : Schedules :=
  let f := fun (sc : Schedule) => if sc.id = id then { sc with drive := sc.drive.setCrossing } else sc
  { latest := s.latest.map f, older := s.older.map f }

/-- R81: a crossing is detected: the search stops, the counts rise, the schedule is flagged. -/
def Part.crossingFound (p : Part) (m : Slot) (sched : Nat) (early : Bool) : Part :=
  p.modMotor m fun q =>
    { q with
      scheds := q.scheds.setCrossing sched
      seqr := { q.seqr with
        detected := bump q.seqr.detected
        early := if early then bump q.seqr.early else q.seqr.early
        run := q.seqr.run.map fun r => { r with search := r.search.map fun se => { se with searching := false } } } }

/-- What the sequencer does with a crossing (R77, R83). -/
def Part.actOnCrossing (p : Part) (m : Slot) (data : SubData) (early : Bool) (tzc : Tick) : Part :=
  match data with
  | .ramp t confirm hold => if early then p else p.confirmCrossing m t confirm hold tzc
  | .closed tRef _ f _ _ => p.closedCrossing m tRef f tzc
  | .align _ => p

/-- A valid sample (R80 to R84). -/
def Part.useSample (p : Part) (m : Slot) (sched : Nat) (r : SeqRun) (se : Search) (x : Int) (frozenAt : Tick) : Part :=
  match judgeCrossing (risingExpected r.dir r.step) se.prev x frozenAt with
  | .no => p.modRun m fun r => { r with search := some { se with prev := some { x := x, instant := frozenAt } } }
  | .early tzc => (p.crossingFound m sched true).actOnCrossing m r.data true tzc
  | .between tzc => (p.crossingFound m sched false).actOnCrossing m r.data false tzc

/-- R80: the sample of a BLOCK_ON group judged at this instant, the completion of the group. BLANK is read only for a
sample that the other conditions leave valid (log 10). -/
def Part.judgeSample (p : Part) (m : Slot) (sched : Nat) (inStep : Bool) (frozenAt : Tick) (float bus : Code) : Part :=
  match p.running m, (p.motor m).seqr.run with
  | true, some r =>
    match r.search with
    | some se =>
      if se.searching && inStep then
        match p.readFor m ((RecordId.profile m).pos 8) with
        | (none, p) => p
        | (some fs, p) =>
          if atOrAfter frozenAt (later se.ref (field fs 1)) then p.useSample m sched r se (crossingValue float bus) frozenAt
          else p
      else p
    | none => p
  | _, _ => p

end Sys2Proof.Machine
end

