-- ==== Sys2Proof/Machine/Windows.lean ====
section
/-! DEFINITION. The window finder's arithmetic (chapter 6): which entries are due (R94), the windows by kind (R98 to
R103), the requests (R96, R102, R106), and the values formed from codes (R104, R105, R107). -/

namespace Sys2Proof.Machine

/-- R94: an enabled entry is due in the periods whose number is a multiple of N. -/
def PlanEntry.due (e : PlanEntry) (period : Byte) : Bool := e.enabled && period.toNat % e.decimation == 0

/-- R95: the copy of the previous period for LEG3: each phase's end and class, and the period's length. -/
structure PrevPeriod where
  e : PerPhase Nat
  cls : PerPhase WidthClass
  len : Nat
  deriving DecidableEq, Repr

/-- What the second part of the window finder reads (R95). -/
structure FinderInput where
  p : Nat
  len : Nat
  dt : Nat
  st : Nat
  motorPriority : Nat
  channels : PerPhase (Fin 16)
  offsets : PerPhase Nat
  voltages : PerPhase (Fin 16)
  busChannel : Fin 16
  deriving DecidableEq, Repr

/-- What the drive of the new period tells the window finder: the planner's pulses and windows, or the step at the
valley and its pulse. -/
inductive DriveWindows where
  | sine (plan : SinePlan) (prev : Option PrevPeriod)
  | block (step : Fin 6) (u : Pulse)
  deriving DecidableEq, Repr

/-! ## Leg pair -/

/-- The phase with the largest start among some, the lower index first (R98). -/
def largestStart (s : PerPhase Nat) : List Phase → Phase
  | [] => .u
  | [x] => x
  | x :: y :: l => if s.get (largestStart s (y :: l)) ≤ s.get x then x else largestStart s (y :: l)

/-- R98: the two chosen legs, in phase order. -/
def chosenLegs (s : PerPhase Nat) : List Phase :=
  let first := largestStart s Phase.all
  let second := largestStart s (Phase.all.filter (· ≠ first))
  Phase.all.filter fun x => x == first || x == second

/-- R99: the tail of a leg; none: no lower bound. -/
def tailOf (dt st : Nat) (prev : Option PrevPeriod) (x : Phase) : Option Int :=
  match prev with
  | none => none
  | some q =>
    match q.cls.get x with
    | .empty => none
    | .between => some ((q.e.get x : Int) + dt + st - q.len)
    | .full => some ((dt : Int) + st)

/-- R99: earliest instant from the tails of the chosen legs. -/
def earliestOf (tails : List (Option Int)) : Int :=
  match (tails.filterMap id).max? with
  | none => 0
  | some t => max 0 (t + Config.acquisition)

/-- A window with earliest, planned and latest instants when it is not empty. -/
def windowIf (earliest planned latest : Int) : Option (Nat × Nat × Nat) :=
  if earliest ≤ latest then some (earliest.toNat, planned.toNat, latest.toNat) else none

/-- R99: the leg-pair window. -/
def legWindow (i : FinderInput) (s : PerPhase Nat) (prev : Option PrevPeriod) : Option (Nat × Nat × Nat) :=
  let legs := chosenLegs s
  let earliest := earliestOf (legs.map (tailOf i.dt i.st prev))
  let latest : Int := ((legs.map s.get).min?.getD 0 : Nat) - 1
  windowIf earliest earliest latest

/-! ## Link, BLOCK and auxiliary windows -/

/-- R100: the planner's interval as a request's window. -/
def linkWindow (w : Option (Nat × Nat)) : Option (Nat × Nat × Nat) := w.map fun (a, b) => (a, a, b)

/-- R101: the BLOCK_ON window. -/
def blockWindow (i : FinderInput) (u : Pulse) : Option (Nat × Nat × Nat) :=
  if u.w = 0 then none
  else
    let c1 := if u.w = i.p then min i.p i.len else if u.e < i.len then u.e else i.len - 1
    let earliest := u.s + i.st + Config.acquisition
    windowIf earliest ((earliest + (c1 - 1)) / 2 : Nat) ((c1 : Int) - 1)

/-- R103: the windows of the auxiliary kinds, which exist in every period. -/
def auxWindow (i : FinderInput) (start : Nat) : Option (Nat × Nat × Nat) := some (start, start, min (start + 255) (i.len - 1))

/-! ## Requests -/

/-- What a kind of entry asks for in this period: channels, zero offsets, measured legs, phases of its result entries
and window (R98 to R103, R106). -/
structure Ask where
  channels : List (Fin 16)
  offsets : List Nat
  legs : List Phase
  phases : List (Option Phase)
  window : Option (Nat × Nat × Nat)
  deriving DecidableEq, Repr

/-- The parts of an entry's request by its kind. A kind that the drive does not allow is held out of a valid run by R20,
R22 and R93; it gets no window. -/
def PlanEntry.ask (e : PlanEntry) (i : FinderInput) (d : DriveWindows) : Ask :=
  match e.kind, d with
  | .legPair, .sine plan prev =>
    let s := plan.pulse.map (·.s)
    let legs := chosenLegs s
    { channels := legs.map i.channels.get, offsets := legs.map i.offsets.get, legs := legs
      phases := Phase.all.map some, window := legWindow i s prev }
  | .linkA, .sine plan _ =>
    { channels := [i.channels.u], offsets := [i.offsets.u], legs := [], phases := [some plan.mx], window := linkWindow plan.winA }
  | .linkB, .sine plan _ =>
    { channels := [i.channels.u], offsets := [i.offsets.u], legs := [], phases := [some plan.mn], window := linkWindow plan.winB }
  | .blockOn, .block step u =>
    let r := rolesOf step
    { channels := [i.channels.u, i.voltages.get r.floating, i.busChannel], offsets := [i.offsets.u], legs := []
      phases := [some r.pulsed, some r.floating, none], window := blockWindow i u }
  | .auxValley, _ =>
    { channels := e.aux, offsets := [], legs := [], phases := e.aux.map fun _ => none, window := auxWindow i 0 }
  | .auxPeak, _ =>
    { channels := e.aux, offsets := [], legs := [], phases := e.aux.map fun _ => none, window := auxWindow i (i.p / 2) }
  | .legPair, .block _ _ => { channels := [], offsets := [], legs := [], phases := Phase.all.map some, window := none }
  | .linkA, .block _ _ | .linkB, .block _ _ => { channels := [], offsets := [], legs := [], phases := [none], window := none }
  | .blockOn, .sine _ _ => { channels := [], offsets := [], legs := [], phases := [none, none, none], window := none }

/-- R96: the request of a due entry; UNMEASURABLE when its window does not exist. -/
def PlanEntry.request (e : PlanEntry) (i : FinderInput) (d : DriveWindows) : Request :=
  let a := e.ask i d
  { entry := e.index, tag := e.tag, kind := e.kind, priority := e.priority, motorPriority := i.motorPriority
    channels := a.channels, offsets := a.offsets, legs := a.legs, phases := a.phases, window := a.window
    status := if a.window.isSome then .waiting else .unmeasurable
    frozenAt := none, deferred := false, codes := [], readings := [], joined := false, stayed := false, inStep := false }

/-! ## Values -/

/-- R104: a code's RAIL flag. -/
def Code.isRail (c : Code) : Bool := c == 0#12 || c == 4095#12

/-- A measured value with its flags (R104). -/
def measured (v : Int) (c : Code) : Reading := { value := v, rail := Code.isRail c, reconstructed := false }

/-- R105: the three values of a leg pair in phase order, from the chosen legs and their values. -/
def legReadings (legs : List Phase) (a b : Reading) : List Reading :=
  let third : Reading := { value := -(a.value + b.value), rail := a.rail || b.rail, reconstructed := true }
  Phase.all.map fun x => if legs[0]? = some x then a else if legs[1]? = some x then b else third

/-- R104, R105: the values of a request from its codes in channel order. -/
def Request.form (r : Request) (codes : List Code) : List Reading :=
  let code := fun k => codes.getD k 0#12
  let current := fun k => measured (((code k).toNat : Int) - r.offsets.getD k 0) (code k)
  let plain := fun k => measured ((code k).toNat : Int) (code k)
  match r.kind with
  | .legPair => legReadings r.legs (current 0) (current 1)
  | .linkA => [current 0]
  | .linkB => [measured (-(((code 0).toNat : Int) - r.offsets.getD 0 0)) (code 0)]
  | .blockOn => [current 0, plain 1, plain 2]
  | .auxValley | .auxPeak => (List.range codes.length).map plain

/-- R107: the current values of a request with the phases of their result entries. -/
def Request.currents (r : Request) : List (Int × Option Phase) :=
  let all := List.zipWith (fun (v : Reading) ph => (v.value, ph)) r.readings r.phases
  match r.kind with
  | .legPair | .linkA | .linkB => all
  | .blockOn => all.take 1
  | .auxValley | .auxPeak => []

end Sys2Proof.Machine
end

