-- ==== Sys2Proof/Machine/Events.lean ====
section
/-! DEFINITION. When a timed event falls due. `delay` gives the ticks until an event's instant, `ready` the order that
R115 to R117 leave among the things of one instant, and `takeTimed` what a timed command does: time passes up to the
event's instant and the event is taken there; a command whose event is not the next to come changes nothing (log 1). -/

namespace Sys2Proof.Machine

/-! ## Instants of the timed events -/

/-- R10: the ticks until the cycle position reaches a position, in this cycle. -/
def Timebase.until (t : Timebase) (pos : Nat) : Option Nat :=
  if !t.endDue && decide (t.pos ≤ pos) && decide (pos < t.len) then some (pos - t.pos) else none

/-- R2: the ticks until the cycle end. -/
def Timebase.untilEnd (t : Timebase) : Nat := if t.endDue then 0 else t.len - t.pos

/-- R10: the ticks until the position equals a carrier offset. Position 0 is the instant of a cycle end too, which is
taken before the valley or after it (R10, R12; log 4). -/
def Timebase.untilOffset (t : Timebase) (offset : Nat) : Option Nat :=
  if offset = 0 then some (if !t.endDue && t.pos == 0 then 0 else t.untilEnd) else t.until offset

/-- R10: the first valley of a START_PENDING motor, at its carrier offset. The entry's own instant, once taken before
the entry, is past (log 4). -/
def Part.firstValleyDelay (p : Part) (m : Slot) : Option Nat :=
  match (p.motor m).slot.state, (p.motor m).slot.start with
  | .startPending, some w => if w.taken then none else p.tb.untilOffset w.offset
  | _, _ => none

/-- R11: the next valley of a RUNNING motor. -/
def Part.valleyDelay (p : Part) (m : Slot) : Option Nat :=
  match (p.motor m).slot.state, (p.motor m).pace.carrier with
  | .running, some c => some (ticksFrom (later c.valley c.len) p.now)
  | _, _ => none

/-- R57, R13: the next edge of a RUNNING motor's list. -/
def Part.edgeDelay (p : Part) (m : Slot) : Option Nat :=
  match (p.motor m).slot.state, (p.motor m).pace.carrier, (p.motor m).scheds.latest with
  | .running, some c, some sc =>
    ((sc.edges.filter fun e => !e.made).map fun e => ticksFrom (later c.valley (e.dueAt c.len)) p.now).min?
  | _, _, _ => none

/-- R65: a pending turn-on, when its partner is off. -/
def Part.pendDelay (p : Part) (m : Slot) (x : Phase) (s : Switch) : Option Nat :=
  let q := p.motor m
  let g := q.gates.gateAt x s
  let partner := q.gates.gateAt x s.other
  if g.pend.isNone || partner.on then none
  else if partner.gapOver p.now q.dt then some 0
  else some (q.dt - ticksFrom p.now partner.lastOff)

/-- R76, R84: the scheduled commutation of a RUNNING motor, of RAMP kind or not. -/
def Part.commDelay (p : Part) (m : Slot) (ramp : Bool) : Option Nat :=
  match (p.motor m).slot.state, (p.motor m).seqr.run with
  | .running, some r =>
    match r.sched with
    | some c => if (c.kind == .ramp) == ramp then some (ticksFrom c.instant p.now) else none
    | none => none
  | _, _ => none

/-- R85: the search timeout of a RUNNING motor; it stands while the search state is SEARCHING. -/
def Part.timeoutDelay (p : Part) (m : Slot) : Option Nat :=
  match (p.motor m).slot.state, (p.motor m).seqr.run with
  | .running, some r =>
    match r.timeout, r.search with
    | some t, some se => if se.searching then some (ticksFrom t p.now) else none
    | _, _ => none
  | _, _ => none

/-- The request of a motor's most recent schedule for a plan entry that is placed and has not joined the list. -/
def Motor.placedRequest (q : Motor) (entry : Fin 6) : Option (Schedule × Request) :=
  match q.scheds.latest with
  | none => none
  | some sc => (sc.reqs.find? fun r => r.entry == entry && r.status == .waiting && !r.joined).map fun r => (sc, r)

/-- R113: a placed request's planned instant. -/
def Part.joinDelay (p : Part) (m : Slot) (entry : Fin 6) : Option Nat :=
  match (p.motor m).placedRequest entry with
  | some (sc, r) => r.window.map fun (_, planned, _) => ticksFrom (later sc.valley planned) p.now
  | none => none

/-- R110: the end of a FREE hold's acquisition. -/
def Part.holdDelay (p : Part) (h : HoldId) : Option Nat :=
  match p.sampler.holds.get h with
  | .free since false => some (Config.acquisition - ticksFrom p.now since)
  | .free _ true | .held _ _ _ => none

/-- The waiting-list entry a DEADLINE command names. -/
def Sampler.waiter (s : Sampler) (r : Waiter) : Option WaitItem :=
  s.waiting.find? fun w =>
    match w.req, r with
    | .bus, .bus => true
    | .motor m _ e _, .motor n f => m == n && e == f
    | .bus, .motor _ _ | .motor _ _ _ _, .bus => false

/-- R116: the latest instant of a waiting request. -/
def Part.deadlineDelay (p : Part) (r : Waiter) : Option Nat := (p.sampler.waiter r).map fun w => ticksFrom w.latest p.now

/-- R112: the completion of the value under conversion. -/
def Part.convDelay (p : Part) : Option Nat := p.sampler.conv.map fun t => ticksFrom t p.now

/-- R121: the read at position 0, and the placement at BUS_POS. -/
def Part.busDelay (p : Part) : Option Nat :=
  match p.sampler.busPlan with
  | .unread => if p.tb.endDue then none else some 0
  | .at pos => p.tb.until pos
  | .done => none

/-- The ticks until a timed command's event; none when no such event is to come, and for commands that come from outside
the part. -/
def Part.delay (p : Part) : Instr → Option Nat
  | .masterCycleEnd => some p.tb.untilEnd
  | .firstValley m => p.firstValleyDelay m
  | .valley m => p.valleyDelay m
  | .edge m => p.edgeDelay m
  | .pendingTurnOn m x s => p.pendDelay m x s
  | .rampCommutation m => p.commDelay m true
  | .detectedCommutation m => p.commDelay m false
  | .searchTimeout m => p.timeoutDelay m
  | .waitingListJoin m e => p.joinDelay m e
  | .holdEligible h => p.holdDelay h
  | .freeze => if p.sampler.servable p.now then some 0 else none
  | .deadline r => p.deadlineDelay r
  | .conversionComplete _ => p.convDelay
  | .busRequestPlace => p.busDelay
  | .powerOn _ _ | .enFall | .enableReset _ | .syncEdge | .ocPinFall _ | .ocPinRise _ | .transferStart | .idleFrame => none
  | .setpoint _ _ _ _ _ _ _ | .badFrame _ | .abortedTransfer | .readRecord _ _ _ _ | .writeRecord _ _ _ _ _ _ _ => none
  | .arm _ _ | .disarm _ _ | .start _ _ | .park _ _ | .halt _ _ | .release _ _ | .ackFault _ _ | .readStatus _ _ _ => none
  | .clearCounts _ _ | .resetPart _ | .badRequest _ _ => none

/-! ## All the timed events -/

def allEntries : List (Fin 6) := [0, 1, 2, 3, 4, 5]

/-- The events that put requests on the waiting list or make holds eligible: at their instant they come before the
arbiter's grant (R115). -/
def placers : List Instr :=
  [.masterCycleEnd, .busRequestPlace] ++ Ix3.all.map .firstValley ++ Ix3.all.map .valley ++ Ix3.all.map .holdEligible ++
    (Ix3.all.map fun m => allEntries.map fun e => Instr.waitingListJoin m e).flatten

/-- The timed events of the motors that place nothing. -/
def movers : List Instr :=
  Ix3.all.map .edge ++ Ix3.all.map .rampCommutation ++ Ix3.all.map .detectedCommutation ++ Ix3.all.map .searchTimeout ++
    (Ix3.all.map fun m => (Phase.all.map fun x => [Instr.pendingTurnOn m x .low, .pendingTurnOn m x .high]).flatten).flatten

/-- The waiter an entry of the waiting list is. -/
def WaitItem.waiter (w : WaitItem) : Waiter :=
  match w.req with
  | .motor m _ e _ => .motor m e
  | .bus => .bus

/-- Every timed event that could be next; `code` is the converter's, should a conversion complete. -/
def Part.timed (p : Part) (code : Code) : List Instr :=
  placers ++ movers ++ [.freeze, .conversionComplete code] ++ p.sampler.waiting.map fun w => .deadline w.waiter

/-- R115, R116: at this instant nothing is left that places a request or makes a hold eligible. -/
def Part.placed (p : Part) : Bool := placers.all fun e => p.delay e != some 0

/-! ## Steps that cancel while requests are still placed

MASTER_CYCLE_END, BUS_REQUEST_PLACE and a valley can cancel requests of other motors: they read the store, and a word found
uncorrectable trips its motors. R117 has such a cancellation and a freeze, or a latest instant, in either order (log 31). -/

/-- R95, R142: a valley of the period with a BLOCK_ON entry due reads CONFIG word 3. Where the word is uncorrectable, every
RUNNING motor trips, and the valley places nothing. -/
def Part.busChannelRead (p : Part) (m : Slot) (period : Byte) : Part :=
  if (planEntries (p.store.fieldsOf (.plan m))).any fun e => e.due period && e.kind == .blockOn then
    (p.readWord (RecordId.config.pos 3)).2
  else p

/-- The part after what a placing step does to the requests of other motors. The order of the scrubber and the tracker at a
cycle end makes no difference to them. -/
def Part.afterCancel (p : Part) : Instr → Part
  | .masterCycleEnd => p.scrub.turnCycle
  | .busRequestPlace => p.busPlace
  | .firstValley m => p.busChannelRead m 0#8
  | .valley m =>
    match (p.motor m).pace.carrier with
    | some c => p.busChannelRead m (c.period + 1#8)
    | none => p
  | _ => p

/-- R117: the step of a placing event would cancel a request that stands on the list. -/
def Part.cancels (p : Part) (e : Instr) : Bool :=
  p.sampler.waiting.any fun w => !(p.afterCancel e).sampler.waiting.contains w

/-- R115: nothing is left at this instant that places a request, but for steps that cancel one on the list (R117). Such a
step places nothing itself; after a cycle end the bus request may still come (`busAhead`). -/
def Part.listStands (p : Part) : Bool := placers.all fun e => p.delay e != some 0 || p.cancels e

/-- R115, R121: the holds of a bus request that is placed at this instant after the cycle end, and stands ahead of w. -/
def Part.busAhead (p : Part) (w : WaitItem) : Nat :=
  if p.tb.untilEnd = 0 then
    match (p.afterCancel .masterCycleEnd).busPlace.sampler.waiting.find? fun b => !p.sampler.waiting.contains b with
    | some b => if b.before w then b.holds else 0
    | none => 0
  else 0

/-- R115: the head can be frozen at this instant, with holds left for a bus request that is to stand ahead of it. -/
def Part.headFits (p : Part) : Bool :=
  match p.sampler.waiting with
  | [] => false
  | w :: _ => decide (w.holds + p.busAhead w ≤ (p.sampler.eligibleHolds p.now).length)

/-- The order among the things of one instant: the arbiter's grant comes after all that places requests (R115), but before
or after a step that cancels (R117, log 31); a deadline comes after the grants of its instant (R116). All else is taken in
any order. DESIGN CHOICE (log 26): that holds for two DEADLINEs of one latest instant too, so a request behind the other is
MISSED with it, or moves up once the head is MISSED and is then granted where it can be.
DESIGN CHOICE (log 32): a START at its carrier offset, or a restart of the cycle, may come from outside after a grant of its
instant, and what it places there then meets the arbiter at that instant once more. -/
def Part.ready (p : Part) : Instr → Bool
  | .freeze => p.listStands && p.headFits
  | .deadline _ => p.listStands && !p.headFits
  | _ => true

/-- No timed event falls due before d ticks have passed. -/
def Part.noneBefore (p : Part) (d : Nat) : Bool :=
  (p.timed 0#12).all fun e =>
    match p.delay e with
    | some k => decide (d ≤ k)
    | none => true

/-- The part at the instant of an event d ticks away. -/
def Part.upTo (p : Part) (d : Nat) : Part := if d = 0 then p else p.pass d

/-- A timed command: time passes up to its event's instant, where the event is taken, provided that no other event falls
due before and that it is the event's turn. Otherwise, and while EN is low (R32), nothing happens (log 1). -/
def Part.takeTimed (p : Part) (e : Instr) (effect : Part → Part) : Part :=
  if !p.en then p
  else
    match p.delay e with
    | none => p
    | some d => if p.noneBefore d && (p.upTo d).ready e then (effect (p.upTo d)).settle else p

/-- The timed events whose turn it is now. -/
def Part.dueNow (p : Part) : List Instr :=
  (p.timed (Config.adcCode p.free)).filter fun e => p.delay e == some 0 && p.ready e

end Sys2Proof.Machine
end

