-- ==== Sys2Proof/Machine/Clock.lean ====
section
/-! DEFINITION. The timebase's commands: MASTER_CYCLE_END and SYNC_EDGE (chapter 1). -/

namespace Sys2Proof.Machine

/-- MASTER_CYCLE_END (R2, R5 to R8, R159). -/
def execMasterCycleEnd (s : State) : Host.Outcome State Fault Refusal :=
  .next { s with part := s.part.takeTimed .masterCycleEnd Part.cycleEnd }

/-- SYNC_EDGE (R4): stamped with the position; not stamped while EN is low. -/
def execSyncEdge (s : State) : Host.Outcome State Fault Refusal :=
  .next { s with part := if s.part.en then s.part.modTb Timebase.syncEdge else s.part }

end Sys2Proof.Machine
end

