-- ==== Sys2Proof/Machine/Flags.lean ====
section
/-! DEFINITION. The states and flags that are computed from other state (lock state R7, link state R164, fault output
R145, sub-phase R24), the numbers of the enumerations (R173), and the flag fields of upstream frames (R135, R173). -/

namespace Sys2Proof.Machine

/-! ## Computed states -/

/-- R7: LOCKED when the consecutive capture count is 4. -/
def Timebase.locked (t : Timebase) : Bool := t.run == 4

/-- R164: ACTIVE below 128, DEGRADED from 128 to 255, LOST at 256. -/
def Link.state (l : Link) : LinkState :=
  if l.errors < 128 then .active else if l.errors < 256 then .degraded else .lost

/-- A motor that holds the fault output asserted (R145). -/
def Motor.faulted (q : Motor) : Bool := q.slot.state == .tripped || q.slot.state == .lockedOut

/-- R145: the fault output is asserted while at least one motor is TRIPPED or LOCKED_OUT. -/
def Part.faultOut (p : Part) : Bool := p.motors.toList.any Motor.faulted

/-! ## Numbers (R173; other enumerations by their place in the list that first gives their range) -/

def b2n (b : Bool) : Nat := if b then 1 else 0

def MotorState.num : MotorState → Nat
  | .off => 0 | .ready => 1 | .startPending => 2 | .running => 3 | .safeStop => 4 | .tripped => 5 | .lockedOut => 6

def LinkState.num : LinkState → Nat
  | .active => 0 | .degraded => 1 | .lost => 2

def ReplyCode.num : ReplyCode → Nat
  | .ok => 0 | .refusedState => 1 | .refusedField => 2 | .refusedStatic => 3 | .incomplete => 4 | .planTooLarge => 5
  | .planMismatch => 6 | .degraded => 7 | .badRequest => 8 | .locked => 9 | .pinActive => 10 | .busLow => 11
  | .tableInvalid => 12

def FaultCause.num : FaultCause → Nat
  | .ocPin => 1 | .current => 2 | .stall => 3 | .table => 4

def StopCause.num : StopCause → Nat
  | .halt => 0 | .link => 1 | .starved => 2 | .busUv => 3 | .busOv => 4

def ValleyOutcome.num : ValleyOutcome → Nat
  | .new => 0 | .held => 1 | .waiting => 2

/-- 0 none, 1 U, 2 V, 3 W (R173). -/
def phaseNum : Option Phase → Nat
  | none => 0
  | some x => x.toNat + 1

def StartOrigin.num : StartOrigin → Nat
  | .ready => 0 | .safeStop => 1

def GateAction.num : GateAction → Nat
  | .allOff => 0 | .lowBrake => 1

def WidthClass.num : WidthClass → Nat
  | .empty => 0 | .full => 1 | .between => 2

def CommKind.num : CommKind → Nat
  | .ramp => 0 | .detected => 1 | .timeout => 2

def ReqStatus.num : ReqStatus → Nat
  | .waiting => 0 | .frozen => 1 | .done => 2 | .missed => 3 | .unmeasurable => 4

def PlanKind.num : PlanKind → Nat
  | .legPair => 0 | .linkA => 1 | .linkB => 2 | .blockOn => 3 | .auxValley => 4 | .auxPeak => 5

/-- ALIGN, RAMP, CLOSED. -/
def SubData.num : SubData → Nat
  | .align _ => 0 | .ramp _ _ _ => 1 | .closed _ _ _ _ _ => 2

def CrossDir.num : CrossDir → Nat
  | .toBelow => 0 | .toAbove => 1 | .toHigh => 2 | .toNormal => 3

/-- The supervisor a BUS_CROSS direction belongs to: 0 UV, 1 OV. -/
def CrossDir.supervisor : CrossDir → Nat
  | .toBelow | .toAbove => 0
  | .toHigh | .toNormal => 1

/-! ## Flag fields of upstream frames -/

/-- R135 in the bits of R173: motor states in bits 0 to 8, link state in 9 and 10, UV BELOW, OV HIGH, dropped flag. -/
def Part.summary (p : Part) : BitVec 16 :=
  BitVec.ofNat 16
    ((p.motor .i0).slot.state.num + 8 * (p.motor .i1).slot.state.num + 64 * (p.motor .i2).slot.state.num +
      512 * p.link.state.num + 2048 * b2n p.bus.uvBelow + 4096 * b2n p.bus.ovHigh + 8192 * b2n p.up.dropped)

/-- SAMPLE body byte 0 (R173): motor, step or 7, result count. -/
def SampleFrame.byte0 (f : SampleFrame) : Byte :=
  BitVec.ofNat 8 (f.motor.toNat + 4 * ((f.step.map (·.val)).getD 7) + 32 * f.entries.length)

/-- The period status, SAMPLE body byte 3 (R173). -/
def SampleFrame.status (f : SampleFrame) : Byte :=
  BitVec.ofNat 8
    (f.outcome.num + 4 * b2n f.overrun + 8 * b2n f.stale + 16 * b2n f.crossing + 32 * b2n f.commutated + 64 * b2n f.shift)

/-- Byte 1 of a result entry (R173). -/
def ResultEntry.flags (e : ResultEntry) : Byte :=
  BitVec.ofNat 8
    (phaseNum e.phase + 4 * b2n e.missed + 8 * b2n e.unmeasurable + 16 * b2n e.deferred + 32 * b2n e.rail +
      64 * b2n e.reconstructed)

end Sys2Proof.Machine
end

