-- ==== Sys2Proof/Machine/Frames.lean ====
section
/-! DEFINITION. The upstream half of a transfer: the bytes of upstream frames (R173), the arbiter's choice and the header
(R133 to R135; TRANSFER_START), and the consumption at the transfer's end (R136, R137). -/

namespace Sys2Proof.Machine

/-! ## Bytes -/

/-- A number as a byte; as a 16-bit field; as a 32-bit field, most significant byte first (R173). -/
def byte (n : Nat) : Byte := BitVec.ofNat 8 n

def half (n : Nat) : List Byte := bytes16 (BitVec.ofNat 16 n)

def signed16 (v : Int) : List Byte := bytes16 (BitVec.ofInt 16 v)

def bytes32 (t : Tick) : List Byte := [t.extractLsb' 24 8, t.extractLsb' 16 8, t.extractLsb' 8 8, t.extractLsb' 0 8]

/-- The four bytes of a result entry (R173). -/
def ResultEntry.bytes (e : ResultEntry) : List Byte := [e.tag, e.flags] ++ signed16 e.value

/-- The SAMPLE body (R128, R173). -/
def SampleFrame.body (f : SampleFrame) : List Byte :=
  [f.byte0, f.period, f.tag, f.status] ++ bytes16 (f.valley.extractLsb' 0 16) ++ (f.entries.map ResultEntry.bytes).flatten

/-- The FAULT body (R147, R173): the record with the motor state at the transfer's start. -/
def FaultRecord.body (r : FaultRecord) (m : Slot) (st : MotorState) : List Byte :=
  [byte m.toNat, byte st.num, byte (r.cause.num + 128 * b2n r.period.isSome)] ++ bytes32 r.instant ++
    [r.period.getD 0#8] ++ signed16 r.value ++ [byte (phaseNum r.phase)] ++
    match r.second with
    | some c => [byte c.cause.num] ++ bytes32 c.instant ++ signed16 c.value ++ [byte (phaseNum c.phase)]
    | none => []

/-- The REPLY body (R173). -/
def Reply.body (r : Reply) : List Byte := [r.tag, r.request, byte r.code.num, byte r.data.length] ++ r.data

/-- The NOTICE body (R173). -/
def Notice.body : Notice → List Byte
  | .busCross d c => [0#8, byte d.supervisor, byte d.num] ++ half c.toNat
  | .syncSlip e => [1#8] ++ signed16 e
  | .tableInvalid region index => [2#8, byte region, byte index]
  | .safeStop m cause => [3#8, byte m.toNat, byte cause.num]

/-- The upstream kind of a queued frame (R173). -/
def FrameBody.kind : FrameBody → Nat
  | .sample _ => 1
  | .reply _ => 3
  | .notice _ => 4

def FrameBody.body : FrameBody → List Byte
  | .sample f => f.body
  | .reply r => r.body
  | .notice n => n.body

/-! ## The arbiter -/

/-- Of two fault slots the one whose record is earlier by its trip instant (R1); the first of equal ones (R133). -/
def earlierFault (a b : Option (Slot × FaultRecord)) : Option (Slot × FaultRecord) :=
  match a, b with
  | some x, some y => if atOrAfter y.2.instant x.2.instant then some x else some y
  | some x, none => some x
  | none, b => b

/-- The fault slot the arbiter takes first (R133). -/
def Upstream.firstFault (u : Upstream) : Option (Slot × FaultRecord) :=
  let slot := fun m => (u.slots.get m).map fun r => (m, r)
  earlierFault (earlierFault (slot .i0) (slot .i1)) (slot .i2)

/-- What the arbiter chooses: the frame, its kind and body, and the stream identifier that a SAMPLE frame brings. -/
structure Choice where
  carried : Carried
  kind : Nat
  body : List Byte
  stream : Option Byte
  deriving DecidableEq, Repr

/-- The stream identifier recorded with a SAMPLE frame (R134). -/
def FrameBody.stream : FrameBody → Option Byte
  | .sample f => some f.stream
  | .reply _ | .notice _ => none

/-- R133: a fault report first, else the head of the general queue, else IDLE. -/
def Part.choose (p : Part) : Choice :=
  match p.up.firstFault with
  | some (m, r) => { carried := .fault m, kind := 2, body := r.body m (p.motor m).slot.state, stream := none }
  | none =>
    match p.up.queue with
    | f :: _ => { carried := .queued f.id, kind := f.body.kind, body := f.body.body, stream := f.body.stream }
    | [] => { carried := .idle, kind := 0, body := [], stream := none }

/-- R134: the upstream stream identifier of CONFIG; 0 when CONFIG is not valid. -/
def Part.upStream (p : Part) : Byte × Part :=
  match p.readConfig [7] with
  | (some ws, p) => (byte (recField ws 0 0), p)
  | (none, p) => (0#8, p)

/-- The bytes of the transfer in progress, once they are fixed. -/
def Transfer.setBytes (t : Transfer) (bytes : List Byte) : Transfer :=
  match t with
  | .active c _ loss changed => .active c bytes loss changed
  | .absent => .absent
  | .ignored => .ignored

/-- R133, R134: the start of a transfer. The choice and the summary are fixed before CONFIG is read. -/
def Part.beginTransfer (p : Part) : Part :=
  let c := p.choose
  let summary := p.summary
  let p := p.modUp fun u => { u with transfer := .active c.carried [] false false }
  let sp := match c.stream with
    | some st => (st, p)
    | none => p.upStream
  sp.2.modUp fun u =>
    { u with transfer := u.transfer.setBytes (sealFrame ([byte c.kind, sp.1] ++ bytes16 summary) c.body) }

/-- TRANSFER_START (R133, R162): a transfer that begins while EN is low is ignored; while one is in progress LSEL does
not fall (log 1). -/
def execTransferStart (s : State) : Host.Outcome State Fault Refusal :=
  .next { s with part :=
    match s.part.up.transfer with
    | .absent => if s.part.en then s.part.beginTransfer.settle else s.part.modUp fun u => { u with transfer := .ignored }
    | .ignored | .active _ _ _ _ => s.part }

/-! ## LDO -/

/-- Bit k of a frame: byte 0 first, each byte most significant bit first (R162). -/
def frameBit (bytes : List Byte) (k : Nat) : Bool := (byteAt bytes (k / 8)).getMsbD (k % 8)

/-- The level of LDO (R162) in the LCLK period k, counted from 0 at the transfer's start; true is HIGH, and none says that
it is not driven. The frame's 36 bytes, then LOW until LSEL rises; LOW while LSEL is high, and in a transfer that saw EN low
once EN is high again. -/
def Part.ldo (p : Part) (k : Nat) : Option Bool :=
  if !p.en then none
  else
    match p.up.transfer with
    | .active _ bytes _ _ => some (decide (k < 288) && frameBit bytes k)
    | .absent | .ignored => some false

/-! ## The end of a transfer -/

/-- The sent count of a queued frame's kind (R136). -/
def Upstream.countSent (u : Upstream) : FrameBody → Upstream
  | .sample _ => { u with sent := bump u.sent }
  | .reply _ => { u with replySent := bump u.replySent }
  | .notice _ => { u with noticeSent := bump u.noticeSent }

/-- R136, R137: a completed transfer consumes its frame; a frame that has left its place is not consumed. -/
def Upstream.consume (u : Upstream) : Upstream :=
  match u.transfer with
  | .active (.queued id) _ _ _ =>
    match u.queue.find? (·.id == id) with
    | some f => { u.countSent f.body with queue := u.queue.filter (·.id != id), transfer := .absent }
    | none => { u with transfer := .absent }
  | .active (.fault m) _ _ changed =>
    if (u.slots.get m).isSome then
      { u with faultSent := bump u.faultSent, slots := if changed then u.slots else u.slots.set m none, transfer := .absent }
    else { u with transfer := .absent }
  | .active .idle _ loss _ =>
    { u with idleSent := bump u.idleSent, dropped := u.dropped && loss, transfer := .absent }
  | .ignored | .absent => { u with transfer := .absent }

/-- R136: a transfer that ended short consumes nothing. -/
def Upstream.leaveUnconsumed (u : Upstream) : Upstream :=
  { u with unconsumed := bump u.unconsumed, transfer := .absent }

end Sys2Proof.Machine
end

