-- ==== Sys2Proof/Machine/Valley.lean ====
section
/-! DEFINITION. Valleys: FIRST_VALLEY, VALLEY, EDGE and PENDING_TURN_ON. The work of a valley in its order: setpoint queue
(chapter 3), plan (R95), drive (R49, R73), trim (R12), windows (R95, R96), and the new period (R11, R45). -/

namespace Sys2Proof.Machine

/-! ## The setpoint queue's decision -/

/-- The decision on a head record (R40). -/
inductive Verdict where
  | take | wait | stale
  deriving DecidableEq, Repr

/-- R40: δ = (apply-at - period number) mod 256. -/
def SetRec.verdict (r : SetRec) (period : Byte) : Verdict :=
  match r.applyAt with
  | none => .take
  | some a =>
    if a = period then .take
    else if (a - period).toNat ≤ 127 then .wait
    else .stale

/-- R41: a duty after saturation. -/
def saturate (d : BitVec 16) : Nat := min d.toNat 32768

/-- R40 to R43: the queue's work on its records; HELD counts as starved. -/
def SetQueue.decide (s : SetQueue) (period : Byte) : List SetRec → ValleyOutcome × SetQueue
  | [] =>
    (.held, { s with recs := [], starved := min (s.starved + 1) 255, starvedValleys := bump s.starvedValleys })
  | r :: l =>
    match r.verdict period with
    | .take => (.new, { s with recs := l, applied := ⟨r.tag, r.duty.map saturate⟩, starved := 0 })
    | .wait => (.waiting, { s with recs := r :: l })
    | .stale => SetQueue.decide { s with stales := bump s.stales, staleFlag := true } period l

/-- The queue's decision at a valley, with the starvation stop of R43; none when the motor leaves RUNNING by it. -/
def Part.valleySetpoint (p : Part) (m : Slot) (period : Byte) : Option ValleyOutcome × Part :=
  let d := (p.motor m).setq.decide period (p.motor m).setq.recs
  let p := p.modMotor m fun q => { q with setq := d.2 }
  if d.1 = .held then
    match p.readFor m ((RecordId.profile m).pos 15) with
    | (none, p) => (none, p)
    | (some fs, p) =>
      if field fs 0 ≤ (p.motor m).setq.starved then (none, p.safeStop .starved m) else (some d.1, p)
  else (some d.1, p)

/-! ## The drive of the new period -/

/-- What the edge planner or the commutation sequencer makes of a period. -/
structure Planned where
  drive : Drive
  windows : DriveWindows
  edges : List Edge
  level : PerPhase PhaseLevel
  figE : Nat
  deriving DecidableEq, Repr

/-- R95: the copy of the previous period for LEG3. -/
def Planner.prevPeriod (pl : Planner) : Option PrevPeriod :=
  match pl.last, pl.prev with
  | some l, some c => some { e := l.pulse.map (·.e), cls := c, len := l.len }
  | _, _ => none

/-- R52, R60, R61: the planner's counts after a plan. -/
def Planner.count (pl : Planner) (s : SinePlan) : Planner :=
  { pl with
    clampZero := bumpBy pl.clampZero s.zeros
    clampFull := bumpBy pl.clampFull s.fulls
    shiftA := if s.a.ticks = 0 then pl.shiftA else bump pl.shiftA
    shiftB := if s.b.ticks = 0 then pl.shiftB else bump pl.shiftB
    refused := bumpBy pl.refused (b2n s.a.refused + b2n s.b.refused) }

/-- R49: the edge planner at a valley; words 2 and 3 give DT, PMIN, ST and SHMAX. -/
def Part.planSineDrive (p : Part) (m : Slot) (sense : Sense) (due : List PlanEntry) : Option Planned × Part :=
  let w := (RecordId.profile m).pos
  match p.readAllFor m [w 2, w 3] with
  | (none, p) => (none, p)
  | (some ws, p) =>
    let dueKind := fun k => sense == .link && due.any (·.kind == k)
    let plan := planSine
      { p := p.tb.p, dt := recField ws 0 0, pmin := recField ws 0 1, st := recField ws 1 0, shmax := recField ws 1 1
        dueA := dueKind .linkA, dueB := dueKind .linkB }
      (p.motor m).setq.applied.duty
    let prev := if sense = .leg3 then (p.motor m).planner.prevPeriod else none
    (some
      { drive := .sine plan.pulse plan.a.ticks plan.b.ticks, windows := .sine plan prev, edges := plan.edges
        level := plan.pulse.map (sineLevel p.tb.p), figE := plan.figE },
     p.modMotor m fun q => { q with planner := q.planner.count plan })

/-- R75: the sequencer of a new run: ALIGN, the align step, align count 1. -/
def SeqRun.begin (dir : Direction) (step : Fin 6) : SeqRun :=
  { dir := dir, step := step, pulse := ⟨0, 0, 0⟩, data := .align 1, search := none, stepConfirmed := false, sched := none
    post := none, timeout := none, opening := [] }

/-- R75: the entry into RAMP at a valley. -/
def SeqRun.enterRamp (r : SeqRun) (now : Tick) (tStart : Nat) : SeqRun :=
  { r with
    data := .ramp tStart 0 0
    search := some { ref := now, searching := true, prev := none }
    stepConfirmed := false
    sched := some { instant := later now tStart, kind := .ramp, late := false } }

/-- R73 step 3: the sub-phase at a valley; T_HANDOVER is read when RAMP is entered (R73 step 2). Requests frozen before
the entry do not belong to the step in force (R80). -/
def Part.moveSubPhase (p : Part) (m : Slot) (alignPeriods tStart : Nat) (dir : Direction) (alignStep : Fin 6) :
    Option SeqRun × Part :=
  match (p.motor m).seqr.run with
  | none => (some (.begin dir alignStep), p)
  | some r =>
    match r.data with
    | .align n =>
      if n < alignPeriods then (some { r with dir := dir, data := .align (n + 1) }, p)
      else
        match p.readFor m ((RecordId.profile m).pos 12) with
        | (none, p) => (none, p)
        | (some _, p) =>
          (some ({ r with dir := dir }.enterRamp p.now tStart),
           p.modMotor m fun q => q.modScheds (·.mapReqs fun r => { r with inStep := false }))
    | .ramp _ _ _ | .closed _ _ _ _ _ => (some { r with dir := dir }, p)

/-- R72: the pulse of a BLOCK period. -/
def blockPulse (duty p pmin : Nat) : Pulse := pulseOf (clampWidth (widthOf duty p) p pmin) p

/-- The duty of a BLOCK period: ALIGN_DUTY in ALIGN, else duty U of the applied setpoint (R72). -/
def SubData.duty (d : SubData) (alignDuty appliedU : Nat) : Nat :=
  match d with
  | .align _ => alignDuty
  | .ramp _ _ _ | .closed _ _ _ _ _ => appliedU

/-- R73, steps 2 to 5: the commutation sequencer at a valley; words 2, 10 and 11 give PMIN, ALIGN_DUTY, ALIGN_PERIODS and
T_START. -/
def Part.planBlockDrive (p : Part) (m : Slot) (dir : Direction) (alignStep : Fin 6) : Option Planned × Part :=
  let w := (RecordId.profile m).pos
  match p.readAllFor m [w 2, w 10, w 11] with
  | (none, p) => (none, p)
  | (some ws, p) =>
    match p.moveSubPhase m (recField ws 1 1) (recField ws 2 0) dir alignStep with
    | (none, p) => (none, p)
    | (some r, p) =>
      let u := blockPulse (r.data.duty (recField ws 1 0) (p.motor m).setq.applied.duty.u) p.tb.p (recField ws 0 1)
      let roles := rolesOf r.step
      (some
        { drive := .block r.step u r.opening false, windows := .block r.step u, edges := blockEdges p.tb.p roles u
          level := ⟨blockLevel p.tb.p roles u .u, blockLevel p.tb.p roles u .v, blockLevel p.tb.p roles u .w⟩
          figE := p.tb.p / 2 },
       p.modMotor m fun q => q.modSeqr fun s => { s with run := some { r with pulse := u, opening := [] } })

/-- R73 step 1: a postponed commutation is made at the valley instant. -/
def Part.makePostponed (p : Part) (m : Slot) : Part :=
  match (p.motor m).seqr.run.bind SeqRun.post with
  | some c => p.makeWithInterval m c.kind c.late true
  | none => p

/-- The drive planned by the profile's mode (R49, R73); none when the motor left RUNNING by a table trip. -/
def Part.planDrive (p : Part) (m : Slot) (due : List PlanEntry) : Option Planned × Part :=
  let p := p.makePostponed m
  if !p.running m then (none, p)
  else
    match p.readFor m ((RecordId.profile m).pos 0) with
    | (none, p) => (none, p)
    | (some fs, p) =>
      match driveModeOf (field fs 0) with
      | .sine => p.planSineDrive m (senseOf (field fs 1)) due
      | .block => p.planBlockDrive m (directionOf (field fs 2)) (Fin.ofNat 6 (field fs 3))

/-! ## The window finder's second part -/

/-- R95: the PROFILE words that a kind of request needs: DT, ST (words 2, 3), channels (4, 5), offsets (6, 7), motor
priority (7). -/
def PlanKind.words : PlanKind → List Nat
  | .legPair => [2, 3, 4, 6, 7]
  | .linkA | .linkB => [4, 6, 7]
  | .blockOn => [3, 4, 5, 6, 7]
  | .auxValley | .auxPeak => [7]

/-- The words that the due entries need, in order, and word 15, which holds the upstream stream identifier (R128). -/
def finderWords (due : List PlanEntry) : List Nat :=
  ([2, 3, 4, 5, 6, 7].filter fun k => due.any fun e => e.kind.words.contains k) ++ [15]

/-- What the finder reads of some words with their fields; a word it did not need reads as no fields. -/
def finderInput (p len : Nat) (fs : Nat → List Nat) (busChannel : Fin 16) : FinderInput :=
  { p := p, len := len, dt := field (fs 2) 0, st := field (fs 3) 0, motorPriority := field (fs 7) 1
    channels := ⟨analogInput (field (fs 4) 0), analogInput (field (fs 4) 1), analogInput (field (fs 4) 2)⟩
    offsets := ⟨field (fs 6) 0, field (fs 6) 1, field (fs 7) 0⟩
    voltages := ⟨analogInput (field (fs 5) 0), analogInput (field (fs 5) 1), analogInput (field (fs 5) 2)⟩
    busChannel := busChannel }

/-- R95: the bus channel of CONFIG, read when a BLOCK_ON entry is due. -/
def Part.readBusChannel (p : Part) (m : Slot) (due : List PlanEntry) : Option (Fin 16) × Part :=
  if due.any (·.kind == .blockOn) then
    match p.readFor m (RecordId.config.pos 3) with
    | (some fs, p) => (some (analogInput (field fs 0)), p)
    | (none, p) => (none, p)
  else (some 0, p)

/-- R95, second part, and R128: the stream identifier and the requests of the due entries. -/
def Part.findWindows (p : Part) (m : Slot) (due : List PlanEntry) (d : DriveWindows) (len : Nat) :
    Option (Byte × List Request) × Part :=
  let ks := finderWords due
  match p.readAllFor m (ks.map (RecordId.profile m).pos) with
  | (none, p) => (none, p)
  | (some ws, p) =>
    match p.readBusChannel m due with
    | (none, p) => (none, p)
    | (some bus, p) =>
      let fs := fun k => ((List.zip ks ws).lookup k).getD []
      let i := finderInput p.tb.p len fs bus
      (some (BitVec.ofNat 8 (field (fs 15) 1), due.map fun e => e.request i d), p)

/-! ## The new period -/

/-- A period about to begin. -/
structure NewPeriod where
  period : Byte
  outcome : ValleyOutcome
  plan : Planned
  trim : Int
  len : Nat
  stream : Byte
  reqs : List Request
  deriving DecidableEq, Repr

/-- The schedule of a new period (R11, R45, R55, R73, R96, R128). -/
def NewPeriod.schedule (n : NewPeriod) (id : Nat) (now : Tick) (s : SetQueue) : Schedule :=
  { id := id, period := n.period, valley := now, len := n.len, tag := s.applied.tag, outcome := n.outcome
    overrun := s.overrunFlag, stale := s.staleFlag, stream := n.stream, drive := n.plan.drive, edges := n.plan.edges
    reqs := n.reqs, handed := false }

/-- A new schedule becomes the most recent one; the one before lives on while it waits for a conversion (R120). -/
def Schedules.push (s : Schedules) (sc : Schedule) : Schedules :=
  { latest := some sc
    older := s.older ++ s.latest.toList.filter fun old => !old.handed && !old.reqs.isEmpty }

/-- R50: the planner's last plan and previous-width record after a SINE period was planned; a BLOCK period leaves them. -/
def Planner.keep (pl : Planner) (p : Nat) (n : NewPeriod) : Planner :=
  match n.plan.drive with
  | .sine pulse shA shB =>
    { pl with
      last := some { pulse := pulse, shA := shA, shB := shB, len := n.len, figE := n.plan.figE }
      prev := some (pulse.map fun u => widthClass u.w p) }
  | .block _ _ _ _ => pl

/-- R45: the flags are cleared once handed on to a period that has an entry due. -/
def SetQueue.handFlags (s : SetQueue) (anyDue : Bool) : SetQueue :=
  if anyDue then { s with overrunFlag := false, staleFlag := false } else s

/-- R96: the two counts of the window finder. -/
def Finder.count (f : Finder) (reqs : List Request) : Finder :=
  { placed := bumpBy f.placed reqs.length
    unmeasurable := bumpBy f.unmeasurable (reqs.filter (·.status == .unmeasurable)).length }

/-- The motor with its new period begun: trim settled (R12), carrier (R11), plan kept (R50), flags handed on (R45),
requests counted (R96), valley levels set (R56, R74). -/
def Motor.beginPeriod (q : Motor) (p : Nat) (now : Tick) (id : Nat) (n : NewPeriod) : Motor :=
  { q with
    pace := { q.pace with trim := q.pace.trim - n.trim, carrier := some ⟨now, n.period, n.len⟩ }
    setq := q.setq.handFlags (!n.reqs.isEmpty)
    planner := q.planner.keep p n
    finder := q.finder.count n.reqs
    scheds := q.scheds.push (n.schedule id now q.setq)
    gates := q.gates.valleyChange now q.dt n.plan.level }

/-- R113: a request joins the waiting list; it is marked as joined. -/
def Part.joinRequest (p : Part) (m : Slot) (sc : Schedule) (r : Request) : Part :=
  match r.waitItem m sc.id sc.valley with
  | none => p
  | some w =>
    (p.modSampler (·.joinList w)).modMotor m fun q =>
      q.modScheds fun s =>
        { s with
          latest := s.latest.map fun sc =>
            { sc with reqs := sc.reqs.map fun x => if x.entry = r.entry then { x with joined := true } else x } }

/-- R113: the requests whose planned instant is the valley join the list there. -/
def Part.joinAtValley (p : Part) (m : Slot) : Part :=
  match (p.motor m).scheds.latest with
  | none => p
  | some sc =>
    (sc.reqs.filter fun r => match r.window with
      | some (_, planned, _) => planned == 0
      | none => false).foldl (fun p r => p.joinRequest m sc r) p

/-- The period begins. -/
def Part.beginPeriod (p : Part) (m : Slot) (n : NewPeriod) : Part :=
  let id := p.nextSched
  ({ p with nextSched := id + 1 }.modMotor m fun q => q.beginPeriod p.tb.p p.now id n).joinAtValley m

/-- The work of a valley that opens the period of a number: queue, plan, drive, trim, windows; it ends where the motor
leaves RUNNING, and then no period is begun (R43, R49, R95). -/
def Part.openPeriod (p : Part) (m : Slot) (period : Byte) : Part :=
  match p.valleySetpoint m period with
  | (none, p) => p
  | (some outcome, p) =>
    match p.readAllFor m (RecordId.plan m).positions with
    | (none, p) => p
    | (some ws, p) =>
      let due := (planEntries ws).filter (·.due period)
      match p.planDrive m due with
      | (none, p) => p
      | (some plan, p) =>
        let trim := appliedTrim (p.motor m).pace.trim p.tb.p plan.figE
        let len := ((p.tb.p : Int) + trim).toNat
        match p.findWindows m due plan.windows len with
        | (none, p) => p
        | (some (stream, reqs), p) =>
          p.beginPeriod m
            { period := period, outcome := outcome, plan := plan, trim := trim, len := len, stream := stream, reqs := reqs }

/-- R10, R23: the first valley. -/
def Part.openFirst (p : Part) (m : Slot) : Part :=
  (p.modMotor m fun q =>
    { q with slot := { q.slot with state := .running, start := none, park := false } }).openPeriod m 0#8

/-- R11, R26: a valley of a RUNNING motor; one that finds the park-pending flag set takes the motor to READY. -/
def Part.openNext (p : Part) (m : Slot) : Part :=
  match (p.motor m).pace.carrier with
  | none => p
  | some c =>
    if (p.motor m).slot.park then (p.leaveRun m .ready none).modMotor m (·.allOff p.now)
    else p.openPeriod m (c.period + 1#8)

/-! ## Edges and pending turn-ons -/

/-- R57: the edges of the list that are due at this instant are requested together. -/
def Motor.makeEdges (q : Motor) (now : Tick) : Motor :=
  match q.pace.carrier, q.scheds.latest with
  | some c, some sc =>
    let r := GateStage.runEdges now q.dt (ticksFrom now c.valley) c.len sc.edges q.gates
    { q with gates := r.2, scheds := { q.scheds with latest := some { sc with edges := r.1 } } }
  | _, _ => q

/-- R65: a pending turn-on of a motor's gate is carried out. -/
def Motor.carryOut (q : Motor) (now : Tick) (x : Phase) (g : Switch) : Motor := q.modGates (·.carryOut now q.dt x g)

/-! ## The commands -/

/-- FIRST_VALLEY (R10, R23). -/
def execFirstValley (m : Slot) (s : State) : Host.Outcome State Fault Refusal :=
  .next { s with part := s.part.takeTimed (.firstValley m) fun p => p.openFirst m }

/-- VALLEY (R11, R26). -/
def execValley (m : Slot) (s : State) : Host.Outcome State Fault Refusal :=
  .next { s with part := s.part.takeTimed (.valley m) fun p => p.openNext m }

/-- EDGE (R57). -/
def execEdge (m : Slot) (s : State) : Host.Outcome State Fault Refusal :=
  .next { s with part := s.part.takeTimed (.edge m) fun p => p.modMotor m (·.makeEdges p.now) }

/-- PENDING_TURN_ON (R65). -/
def execPendingTurnOn (m : Slot) (x : Phase) (g : Switch) (s : State) : Host.Outcome State Fault Refusal :=
  .next { s with part := s.part.takeTimed (.pendingTurnOn m x g) fun p => p.modMotor m (·.carryOut p.now x g) }

end Sys2Proof.Machine
end

