-- ==== Sys2Proof/Machine/Sampling.lean ====
section
/-! DEFINITION. The sampling unit's commands (chapter 7): WAITING_LIST_JOIN, HOLD_ELIGIBLE, FREEZE, DEADLINE,
CONVERSION_COMPLETE and BUS_REQUEST_PLACE, with the current check (R141) and the bus supervisor's judgement (R148). -/

namespace Sys2Proof.Machine

/-! ## Requests by reference -/

/-- f on the request of a plan entry in the schedule of a serial number. -/
def Schedules.modReq (s : Schedules) (id : Nat) (entry : Fin 6) (f : Request → Request) : Schedules :=
  let g := fun (sc : Schedule) =>
    if sc.id = id then { sc with reqs := sc.reqs.map fun r => if r.entry = entry then f r else r } else sc
  { latest := s.latest.map g, older := s.older.map g }

/-- The schedule of a serial number and its request of a plan entry. -/
def Schedules.findReq (s : Schedules) (id : Nat) (entry : Fin 6) : Option (Schedule × Request) :=
  ((s.latest.toList ++ s.older).find? (·.id == id)).bind fun sc => (sc.reqs.find? (·.entry == entry)).map fun r => (sc, r)

/-! ## The waiting list -/

/-- R113: a placed request reaches its planned instant and joins the list. -/
def Part.joinPlaced (p : Part) (m : Slot) (entry : Fin 6) : Part :=
  match (p.motor m).placedRequest entry with
  | some (sc, r) => p.joinRequest m sc r
  | none => p

/-- R110: a FREE hold has tracked for A. -/
def Hold.acquire : Hold → Hold
  | .free since _ => .free since true
  | .held c r t => .held c r t

/-- R111: the request's own part of a freeze. -/
def Request.freeze (r : Request) (now planned : Tick) : Request :=
  { r with status := .frozen, frozenAt := some now, deferred := now != planned, stayed := true, inStep := true }

/-- R111: the counts of a motor's freeze. -/
def SampCounts.freeze (c : SampCounts) (now planned : Tick) : SampCounts :=
  { c with frozen := bump c.frozen, deferred := if now = planned then c.deferred else bump c.deferred }

/-- R111: a motor's request is granted. -/
def Part.freezeMotor (p : Part) (m : Slot) (id : Nat) (entry : Fin 6) (w : WaitItem) : Part :=
  match (p.motor m).scheds.findReq id entry with
  | some (_, r) =>
    (p.modSampler fun s => s.grant p.now w.req r.channels).modMotor m fun q =>
      { q with samp := q.samp.freeze p.now w.planned, scheds := q.scheds.modReq id entry (·.freeze p.now w.planned) }
  | none => p

/-- R111: the bus supervisor's request is granted. -/
def Part.freezeBus (p : Part) : Part :=
  match p.sampler.busReq with
  | .waiting ch _ _ =>
    p.modSampler fun s => { s.grant p.now .bus [ch] with busReq := .frozen, busFrozen := bump s.busFrozen }
  | .absent | .frozen => p

/-- R115: the arbiter grants the head of the waiting list. -/
def Part.grantHead (p : Part) : Part :=
  match p.sampler.waiting with
  | [] => p
  | w :: _ =>
    match w.req with
    | .motor m id entry _ => p.freezeMotor m id entry w
    | .bus => p.freezeBus

/-- R116: a waiting request is resolved MISSED with reason DEADLINE. -/
def Part.missDeadline (p : Part) (r : Waiter) : Part :=
  match p.sampler.waiter r with
  | none => p
  | some w =>
    match w.req with
    | .bus => p.modSampler Sampler.missBus
    | .motor m id entry _ =>
      (p.modSampler fun s => { s with waiting := s.waiting.filter (·.req != w.req) }).modMotor m fun q =>
        { q with
          samp := { q.samp with missedDeadline := bump q.samp.missedDeadline }
          scheds := q.scheds.modReq id entry fun r => { r with status := .missed } }

/-! ## Completion -/

/-- R112: the head of the FIFO has been converted: it leaves, its hold is FREE, the counts rise, the next one starts. -/
def Sampler.convert (s : Sampler) (now : Tick) (code : Code) (e : FifoEntry) (rest : List FifoEntry) : Sampler :=
  { s with
    fifo := rest
    holds := s.holds.set e.hold (.free now false)
    conversions := bump s.conversions
    rails := if Code.isRail code then bump s.rails else s.rails
    conv := if rest.isEmpty then none else some (later now Config.conversion) }

/-- R141: the first current value beyond the limit. -/
def overLimit (limit : Nat) (vs : List (Int × Option Phase)) : Option (Int × Option Phase) :=
  vs.find? fun v => decide (limit < v.1.natAbs)

/-- R118 step 3, R141: the current check of a request whose motor has stayed RUNNING since its freeze. -/
def Part.checkCurrents (p : Part) (m : Slot) (period : Byte) (r : Request) : Part :=
  if r.stayed && !r.currents.isEmpty then
    match p.readFor m ((RecordId.profile m).pos 8) with
    | (none, p) => p
    | (some fs, p) =>
      match overLimit (field fs 0) r.currents with
      | some (v, ph) => p.trip { cause := .current, period := some period, value := v, phase := ph } m
      | none => p
  else p

/-- R118 step 4: the sample of a BLOCK_ON group goes to the commutation sequencer. -/
def Part.offerSample (p : Part) (m : Slot) (id : Nat) (r : Request) : Part :=
  match r.kind, r.frozenAt with
  | .blockOn, some t =>
    -- whether the request still belongs to the step in force, and to a run that has not ended since its freeze (R119), is
    -- read after step 3, which may have stopped the motor
    let inStep := ((p.motor m).scheds.findReq id r.entry).any fun x => x.2.inStep && x.2.stayed
    p.judgeSample m id inStep t (r.codes.getD 1 0#12) (r.codes.getD 2 0#12)
  | _, _ => p

/-- R118, steps 1 to 4: the request has a code for every channel. -/
def Part.completeRequest (p : Part) (m : Slot) (sc : Schedule) (r : Request) : Part :=
  let r := { r with readings := r.form r.codes, status := .done }
  let p := p.modMotor m fun q => q.modScheds (·.modReq sc.id r.entry fun _ => r)
  (p.checkCurrents m sc.period r).offerSample m sc.id r

/-- R112: a code is given to a motor's request; with its last code the request completes. -/
def Part.giveCode (p : Part) (m : Slot) (id : Nat) (entry : Fin 6) (code : Code) : Part :=
  let p := p.modMotor m fun q => q.modScheds (·.modReq id entry fun r => { r with codes := r.codes ++ [code] })
  match (p.motor m).scheds.findReq id entry with
  | some (sc, r) => if r.codes.length = r.channels.length then p.completeRequest m sc r else p
  | none => p

/-! ## The bus supervisor -/

/-- R148: the UV state after a code. -/
def nextUv (below : Bool) (c uvLevel hyst : Nat) : Bool :=
  if below then !decide (uvLevel + hyst < c) else decide (c < uvLevel)

/-- R148: the OV state after a code. -/
def nextOv (high : Bool) (c ovLevel hyst : Nat) : Bool :=
  if high then !decide (c + hyst < ovLevel) else decide (ovLevel < c)

/-- R149: the UV state changes to `below`: counted, with its notice. -/
def Part.setUv (p : Part) (below : Bool) (c : Code) : Part :=
  if p.bus.uvBelow = below then p
  else
    (p.modBus fun b => { b with uvBelow := below, uvCross := bump b.uvCross }).notice
      (.busCross (if below then .toBelow else .toAbove) c)

/-- R149: the OV state changes to `high`: counted, with its notice. -/
def Part.setOv (p : Part) (high : Bool) (c : Code) : Part :=
  if p.bus.ovHigh = high then p
  else
    (p.modBus fun b => { b with ovHigh := high, ovCross := bump b.ovCross }).notice
      (.busCross (if high then .toHigh else .toNormal) c)

/-- A SAFE_STOP request for every motor (R149, R164). -/
def Part.stopAll (p : Part) (cause : StopCause) : Part := p.eachMotor fun m p => p.safeStop cause m

/-- R148, R149: the supervisor judges a code. UV comes before OV. -/
def Part.judgeBus (p : Part) (c : Code) : Part :=
  match p.readConfig [5, 6] with
  | (none, p) => p
  | (some ws, p) =>
    let below := nextUv p.bus.uvBelow c.toNat (recField ws 0 0) (recField ws 1 0)
    let high := nextOv p.bus.ovHigh c.toNat (recField ws 0 1) (recField ws 1 0)
    let toBelow := below && !p.bus.uvBelow
    let toHigh := high && !p.bus.ovHigh
    let p := (p.setUv below c).setOv high c
    let p := if toBelow && recField ws 1 1 == 1 then p.stopAll .busUv else p
    if toHigh && recField ws 1 2 == 1 then p.stopAll .busOv else p

/-- R122: a bus code completes: it is the last bus code, and the bus request is absent, unless a later one stands. -/
def Sampler.takeBusCode (s : Sampler) (c : Code) : Sampler :=
  { s with
    lastCode := some c
    busReq := match s.busReq with
      | .waiting ch a b => .waiting ch a b
      | .absent | .frozen => if s.fifo.any (·.req == .bus) then .frozen else .absent }

/-- R112, R118, R122: the head of the conversion FIFO completes with a code. -/
def Part.converted (p : Part) (code : Code) : Part :=
  match p.sampler.fifo with
  | [] => p
  | e :: rest =>
    let p := p.modSampler fun s => s.convert p.now code e rest
    match e.req with
    | .motor m id entry _ => p.giveCode m id entry code
    | .bus => (p.modSampler (·.takeBusCode code)).judgeBus code

/-! ## The commands -/

/-- WAITING_LIST_JOIN (R113). -/
def execWaitingListJoin (m : Slot) (entry : Fin 6) (s : State) : Host.Outcome State Fault Refusal :=
  .next { s with part := s.part.takeTimed (.waitingListJoin m entry) fun p => p.joinPlaced m entry }

/-- HOLD_ELIGIBLE (R110). -/
def execHoldEligible (h : HoldId) (s : State) : Host.Outcome State Fault Refusal :=
  .next { s with part := s.part.takeTimed (.holdEligible h) fun p => p.modSampler fun sa =>
    { sa with holds := sa.holds.set h (sa.holds.get h).acquire } }

/-- FREEZE (R111, R115). -/
def execFreeze (s : State) : Host.Outcome State Fault Refusal :=
  .next { s with part := s.part.takeTimed .freeze Part.grantHead }

/-- DEADLINE (R116). -/
def execDeadline (r : Waiter) (s : State) : Host.Outcome State Fault Refusal :=
  .next { s with part := s.part.takeTimed (.deadline r) fun p => p.missDeadline r }

/-- CONVERSION_COMPLETE (R112, R118). -/
def execConversionComplete (code : Code) (s : State) : Host.Outcome State Fault Refusal :=
  .next { s with part := s.part.takeTimed (.conversionComplete code) fun p => p.converted code }

/-- BUS_REQUEST_PLACE (R121). -/
def execBusRequestPlace (s : State) : Host.Outcome State Fault Refusal :=
  .next { s with part := s.part.takeTimed .busRequestPlace Part.busPlace }

end Sys2Proof.Machine
end

