-- ==== Sys2Proof/Machine/Link.lean ====
section
/-! DEFINITION. The downstream half of a transfer (chapter 11, sections 11.1 to 11.3): taking a frame, the link state,
bad frames, and the routing of setpoints. Commands: IDLE_FRAME, SETPOINT, BAD_FRAME, ABORTED_TRANSFER. -/

namespace Sys2Proof.Machine

/-! ## Taking a frame -/

/-- The effect of a downstream frame, and the frames that it makes, which then join the general queue. -/
abbrev FrameEffect := Part → List FrameBody × Part

/-- The end of a transfer: what the downstream frame does, and what the end does to the upstream frame, `fin`. The end comes
before the downstream frame's own effect, or after it; then it stands in any place among the frames that join at this
instant (R131, R136; log 3). A transfer that saw EN low is not taken (R162). With no transfer in progress the downstream
frame alone is taken (log 1). -/
def Part.endTransfer (p : Part) (fin : Upstream → Upstream) (act : FrameEffect) : Part :=
  match p.up.transfer with
  | .absent => if p.en then (act p).2.joinAll (act p).1 else p
  | .ignored => p.modUp fun u => { u with transfer := .absent }
  | .active _ _ _ _ =>
    match p.flip with
    | (true, q) =>
      let r := act (q.modUp fin)
      r.2.joinAll r.1
    | (false, q) =>
      let r := act q
      let before := Config.pick p.free / 2 % (r.1.length + 1)
      ((r.2.joinAll (r.1.take before)).modUp fin).joinAll (r.1.drop before)

/-- The end of a transfer that sent all 36 bytes: the upstream frame is consumed (R136). -/
def Part.takeFrame (p : Part) (act : FrameEffect) : Part := p.endTransfer Upstream.consume act

/-! ## The link state -/

/-- R164: a bad frame on the error count, and on the entry counts and the recovery run. -/
def Link.raiseErrors (l : Link) : Link :=
  let l' := { l with errors := min (l.errors + 8) 256 }
  match l.state, l'.state with
  | .lost, _ => { l' with recovery := 0 }
  | .active, .degraded => { l' with degradedEntries := bump l.degradedEntries }
  | _, .lost => { l' with lostEntries := bump l.lostEntries, recovery := 0 }
  | _, _ => l'

/-- R164: a bad frame; on entry to LOST every motor receives a SAFE_STOP request with cause LINK. -/
def Part.badFrame (p : Part) : Part :=
  let before := p.link.state
  let p := p.modLink Link.raiseErrors
  if p.link.state = .lost ∧ before ≠ .lost then p.stopAll .link else p

/-- R165: a good frame while the link is LOST. -/
def Link.recover (l : Link) : Link :=
  let l := { l with ignored := bump l.ignored }
  if l.recovery + 1 = 64 then { l with errors := 0, recovery := 0 } else { l with recovery := l.recovery + 1 }

/-- R164: whether a good frame that finds this error count is acted on in DEGRADED. The count is lowered by the same
frame; at 128 the spec does not say which state counts (log 9). -/
def actsDegraded (errors : Nat) : Bool := if errors = 128 then Config.degradedAtBoundary else decide (128 < errors)

/-- R163 to R166: a good frame; what it does is given whether the link is DEGRADED. That the good count is raised and the
error count lowered before the frame is acted on, so that a snapshot of the link that the frame asks for shows the lowered
count and the link state that follows from it, is the model's reading (log 22). -/
def Part.goodFrame (p : Part) (act : Bool → FrameEffect) : List FrameBody × Part :=
  let p := p.modLink fun l => { l with good := bump l.good }
  if p.link.state = .lost then ([], p.modLink Link.recover)
  else act (actsDegraded p.link.errors) (p.modLink fun l => { l with errors := l.errors - 1 })

/-- A management request executed (R166, R167): counted; its reply joins the queue after the execution's own notices and
frames. -/
def Part.request (p : Part) (tag code : Byte) (f : Part → (ReplyCode × List Byte) × Part) : List FrameBody × Part :=
  let r := f (p.modLink fun l => { l with executed := bump l.executed })
  (r.2.gather.1 ++ [.reply { tag := tag, request := code, code := r.1.1, data := r.1.2 }], r.2.gather.2)

/-- A management frame at the end of its transfer. -/
def Part.takeRequest (p : Part) (tag code : Byte) (f : Bool → Part → (ReplyCode × List Byte) × Part) : Part :=
  p.takeFrame fun p => p.goodFrame fun degraded p => p.request tag code (f degraded)

/-! ## Routing -/

/-- R166: an entry with these fields matches a stream identifier. -/
def entryMatches (fs : List Nat) (stream : Byte) : Bool :=
  field fs 0 != 0 && ((stream ^^^ BitVec.ofNat 8 (field fs 1)) &&& BitVec.ofNat 8 (field fs 2)) == 0#8

/-- R166: the ACCEPT records are read in index order up to the first that matches; its destination. -/
def Part.route (p : Part) (stream : Byte) : List (Fin 8) → Option Nat × Part
  | [] => (none, p)
  | i :: l =>
    match p.readWord ((RecordId.accept i).pos 0) with
    | (none, p) => p.route stream l
    | (some fs, p) => if entryMatches fs stream then (some (field fs 3), p) else p.route stream l

/-- R38: the motor states in which a record is offered to the queue. -/
def MotorState.takesSetpoints : MotorState → Bool
  | .ready | .startPending | .running => true
  | .off | .safeStop | .tripped | .lockedOut => false

/-- R39: a record is offered to the queue. -/
def SetQueue.offer (s : SetQueue) (r : SetRec) : SetQueue :=
  if s.recs.length < 3 then { s with recs := s.recs ++ [r], accepted := bump s.accepted }
  else { s with overruns := bump s.overruns, overrunFlag := true }

/-- R38: a setpoint record for a motor. -/
def Motor.takeSetpoint (q : Motor) (r : SetRec) : Motor :=
  if q.slot.state.takesSetpoints then q.modSetq (·.offer r)
  else q.modSetq fun s => { s with stateDiscards := bump s.stateDiscards }

/-- R166: a setpoint frame routed, dropped or unmatched. -/
def Part.setpoint (p : Part) (stream : Byte) (header : BitVec 16) (r : SetRec) : Part :=
  match p.route stream [0, 1, 2, 3, 4, 5, 6, 7] with
  | (some dest, p) =>
    match slotOfNat dest with
    | some m => (p.modLink fun l => { l with routed := bump l.routed }).modMotor m (·.takeSetpoint r)
    | none => p.modLink fun l => { l with droppedBy := bump l.droppedBy }
  | (none, p) =>
    p.modLink fun l =>
      { l with unmatchedCount := bump l.unmatchedCount, unmatched := some ((1#8 ++ stream) ++ header) }

/-! ## The commands -/

/-- IDLE_FRAME (R166). -/
def execIdleFrame (s : State) : Host.Outcome State Fault Refusal :=
  .next { s with part := s.part.takeFrame fun p => p.goodFrame fun _ p => ([], p) }

/-- SETPOINT (R37, R38, R166). -/
def execSetpoint (stream : Byte) (header : BitVec 16) (tag : Byte) (applyAt : Option Byte) (du dv dw : BitVec 16)
    (s : State) : Host.Outcome State Fault Refusal :=
  .next { s with part := s.part.takeFrame fun p => p.goodFrame fun _ p =>
    (p.setpoint stream header { tag := tag, applyAt := applyAt, duty := ⟨du, dv, dw⟩ }).gather }

/-- R163: the count of a bad frame of 36 bytes. -/
def Link.countBad (l : Link) : BadKind → Link
  | .check => { l with badCheck := bump l.badCheck }
  | .kind => { l with unknownKind := bump l.unknownKind }

/-- BAD_FRAME (R163, R164): the upstream frame is consumed all the same (R136). -/
def execBadFrame (why : BadKind) (s : State) : Host.Outcome State Fault Refusal :=
  .next { s with part := s.part.takeFrame fun p => ((p.modLink (·.countBad why)).badFrame).gather }

/-- R162, R136: an aborted transfer is a bad frame, and its upstream frame is not consumed. -/
def Part.abortTransfer (p : Part) : Part :=
  p.endTransfer Upstream.leaveUnconsumed fun p => ((p.modLink fun l => { l with aborted := bump l.aborted }).badFrame).gather

/-- ABORTED_TRANSFER (R162). -/
def execAbortedTransfer (s : State) : Host.Outcome State Fault Refusal := .next { s with part := s.part.abortTransfer }

end Sys2Proof.Machine
end

