-- ==== Sys2Proof/Machine/Commands.lean ====
section
/-! DEFINITION. The motor commands (chapter 2, R19 to R22, R25, R29, R30; ACK_FAULT R146). -/

namespace Sys2Proof.Machine

/-! ## The checks of R19 -/

/-- R19: the checks common to the seven actions, then the action itself. `gated` is true for ARM and START, which are
refused in DEGRADED. The reply data is the motor state after execution; a motor number outside 0 to 2 has none. -/
def Part.motorCmd (p : Part) (motor : BitVec 4) (degraded gated : Bool) (act : Slot → Part → ReplyCode × Part) :
    (ReplyCode × List Byte) × Part :=
  match slotOfNat motor.toNat with
  | none => ((.badRequest, []), p)
  | some m =>
    let r :=
      if degraded && gated then (.degraded, p)
      else if (p.motor m).slot.state = .lockedOut then (.locked, p)
      else act m p
    ((r.1, [byte (r.2.motor m).slot.state.num]), r.2)

/-- The motor slot's own fields changed. -/
def Part.modSlot (p : Part) (m : Slot) (f : SlotBlock → SlotBlock) : Part := p.modMotor m (·.modSlot f)

/-! ## Reading the records of a motor -/

/-- The fields of word k of PROFILE m as they stand. -/
def Store.profileWord (st : Store) (m : Slot) (k : Nat) : List Nat := (st.word ((RecordId.profile m).pos k)).fields

/-- R20: the plan of motor m is consistent with its profile, as the records stand. -/
def Store.consistent (st : Store) (m : Slot) : Bool :=
  let w := st.profileWord m 0
  planConsistent (driveModeOf (field w 0)) (senseOf (field w 1)) (planEntries (st.fieldsOf (.plan m)))

/-- R18: the gate copies taken at ARM. -/
def Store.gateCopies (st : Store) (m : Slot) : GateCopies :=
  { dt := field (st.profileWord m 2) 0
    safe := gateActionOf (field (st.profileWord m 7) 3)
    trip := gateActionOf (field (st.profileWord m 7) 2) }

/-! ## The seven actions -/

/-- ARM in OFF (R20). -/
def Part.armOff (p : Part) (m : Slot) : ReplyCode × Part :=
  let p := p.readWords (motorRecords m)
  if !p.store.motorValid m then (.tableInvalid, p)
  else if p.tb.p ≤ field (p.store.profileWord m 1) 0 then (.refusedField, p)
  else if !p.store.consistent m then (.planMismatch, p)
  else (.ok, p.modSlot m fun s => { s with state := .ready, copies := some (p.store.gateCopies m) })

def Part.doArm (m : Slot) (p : Part) : ReplyCode × Part :=
  match (p.motor m).slot.state with
  | .off => p.armOff m
  | .ready | .startPending | .running | .safeStop | .tripped | .lockedOut => (.refusedState, p)

/-- DISARM (R21, R46). -/
def Part.doDisarm (m : Slot) (p : Part) : ReplyCode × Part :=
  match (p.motor m).slot.state with
  | .off => (.ok, p)
  | .ready =>
    (.ok, p.modMotor m fun q =>
      { q.allOff p.now with
        slot := { q.slot with state := .off, copies := none }
        setq := q.setq.flush
        pace := { q.pace with trim := 0 } })
  | .startPending | .running | .safeStop | .tripped | .lockedOut => (.refusedState, p)

/-- R22: UV BELOW while the UV mode is STOP. -/
def Part.busLow (p : Part) : Bool :=
  p.bus.uvBelow && field (p.store.word (RecordId.config.pos 6)).fields 1 == 1

/-- R10: the position of the cycle is the offset at this very instant (position 0 is the instant of a cycle end too): the
entry and the position are taken in either order (log 4). DESIGN CHOICE (log 32): that stands also where the arbiter has
granted a request at this instant already (R115); the first valley's requests planned here then come after that grant. -/
def Part.offsetTaken (p : Part) (offset : Nat) : Bool × Part :=
  if p.tb.untilOffset offset = some 0 then p.flip else (false, p)

/-- R22, R44: the entry into START_PENDING. -/
def Part.enterStart (p : Part) (m : Slot) (origin : StartOrigin) : Part :=
  let offset := field (p.store.profileWord m 1) 0
  let t := p.offsetTaken offset
  t.2.modMotor m fun q =>
    { q with
      slot := { q.slot with
        state := .startPending
        stopCause := none
        start := some { origin := origin, offset := offset, taken := t.1 } }
      pace := { q.pace with trim := 0 }
      setq := { q.setq with applied := ⟨0#8, .const 0⟩, starved := 0 } }

/-- START in READY or SAFE_STOP (R22). -/
def Part.startFrom (p : Part) (m : Slot) (origin : StartOrigin) : ReplyCode × Part :=
  let p := p.readWords (motorRecords m)
  if !p.store.motorValid m then (.tableInvalid, p)
  else if !p.store.consistent m then (.planMismatch, p)
  else if p.busLow then (.busLow, p)
  else (.ok, p.enterStart m origin)

def Part.doStart (m : Slot) (p : Part) : ReplyCode × Part :=
  match (p.motor m).slot.state with
  | .ready => p.startFrom m .ready
  | .safeStop => p.startFrom m .safeStop
  | .off | .startPending | .running | .tripped | .lockedOut => (.refusedState, p)

/-- PARK (R25). -/
def Part.doPark (m : Slot) (p : Part) : ReplyCode × Part :=
  match (p.motor m).slot.state with
  | .running => (.ok, p.modSlot m fun s => { s with park := true })
  | .startPending => (.ok, (p.leaveRun m .ready none).modMotor m (·.allOff p.now))
  | .off | .ready | .safeStop | .tripped | .lockedOut => (.refusedState, p)

/-- HALT (R29). -/
def Part.doHalt (m : Slot) (p : Part) : ReplyCode × Part :=
  match (p.motor m).slot.state with
  | .running | .startPending => (.ok, p.safeStop .halt m)
  | .safeStop | .ready | .off => (.ok, p)
  | .tripped | .lockedOut => (.refusedState, p)

/-- RELEASE (R30). -/
def Part.doRelease (m : Slot) (p : Part) : ReplyCode × Part :=
  match (p.motor m).slot.state with
  | .safeStop =>
    (.ok, (p.modMotor m (·.allOff p.now)).modSlot m fun s => { s with state := .ready, stopCause := none })
  | .off | .ready | .startPending | .running | .tripped | .lockedOut => (.refusedState, p)

/-- ACK_FAULT in TRIPPED with the input HIGH (R146). -/
def Part.acknowledge (p : Part) (m : Slot) : Part :=
  let p := p.readWords (motorRecords m)
  let ok := p.store.motorValid m
  (p.modMotor m (·.allOff p.now)).modSlot m fun s =>
    { s with
      fault := none
      state := if ok then .ready else .off
      copies := if ok then s.copies else none }

/-- ACK_FAULT (R146). -/
def Part.doAck (m : Slot) (p : Part) : ReplyCode × Part :=
  match (p.motor m).slot.state with
  | .tripped => if (p.motor m).prot.pinHigh then (.ok, p.acknowledge m) else (.pinActive, p)
  | .off | .ready | .startPending | .running | .safeStop | .lockedOut => (.refusedState, p)

/-! ## The commands -/

/-- ARM (R20). -/
def execArm (tag : Byte) (motor : BitVec 4) (s : State) : Host.Outcome State Fault Refusal :=
  .next { s with part := s.part.takeRequest tag 3#8 fun degraded p => p.motorCmd motor degraded true Part.doArm }

/-- DISARM (R21). -/
def execDisarm (tag : Byte) (motor : BitVec 4) (s : State) : Host.Outcome State Fault Refusal :=
  .next { s with part := s.part.takeRequest tag 3#8 fun degraded p => p.motorCmd motor degraded false Part.doDisarm }

/-- START (R22). -/
def execStart (tag : Byte) (motor : BitVec 4) (s : State) : Host.Outcome State Fault Refusal :=
  .next { s with part := s.part.takeRequest tag 3#8 fun degraded p => p.motorCmd motor degraded true Part.doStart }

/-- PARK (R25). -/
def execPark (tag : Byte) (motor : BitVec 4) (s : State) : Host.Outcome State Fault Refusal :=
  .next { s with part := s.part.takeRequest tag 3#8 fun degraded p => p.motorCmd motor degraded false Part.doPark }

/-- HALT (R29). -/
def execHalt (tag : Byte) (motor : BitVec 4) (s : State) : Host.Outcome State Fault Refusal :=
  .next { s with part := s.part.takeRequest tag 3#8 fun degraded p => p.motorCmd motor degraded false Part.doHalt }

/-- RELEASE (R30). -/
def execRelease (tag : Byte) (motor : BitVec 4) (s : State) : Host.Outcome State Fault Refusal :=
  .next { s with part := s.part.takeRequest tag 3#8 fun degraded p => p.motorCmd motor degraded false Part.doRelease }

/-- ACK_FAULT (R146). -/
def execAckFault (tag : Byte) (motor : BitVec 4) (s : State) : Host.Outcome State Fault Refusal :=
  .next { s with part := s.part.takeRequest tag 3#8 fun degraded p => p.motorCmd motor degraded false Part.doAck }

end Sys2Proof.Machine
end

