-- ==== Sys2Proof/Machine/Commutation.lean ====
section
/-! DEFINITION. The sequencer's commands: RAMP_COMMUTATION, DETECTED_COMMUTATION and SEARCH_TIMEOUT (chapter 5). -/

namespace Sys2Proof.Machine

/-- R78: a RAMP commutation that comes due at the end of an interval of length T_HANDOVER raises the ramp-hold count,
which is judged before the commutation is made; reaching RAMP_HOLD it raises a STALL trip instead. -/
def Part.rampAtHold (p : Part) (m : Slot) (step : Fin 6) (t confirm hold : Nat) : Part :=
  match p.readFor m ((RecordId.profile m).pos 13) with
  | (none, p) => p
  | (some fs, p) =>
    if field fs 1 ≤ hold + 1 then p.stall m step (hold + 1)
    else (p.modRun m fun r => { r with data := .ramp t confirm (hold + 1) }).commutate m .ramp false

/-- R76, R78: the scheduled RAMP commutation of a motor comes due. -/
def Part.rampDue (p : Part) (m : Slot) : Part :=
  match (p.motor m).seqr.run with
  | some r =>
    match r.data with
    | .ramp t confirm hold =>
      match p.readFor m ((RecordId.profile m).pos 12) with
      | (none, p) => p
      | (some fs, p) => if t = field fs 0 then p.rampAtHold m r.step t confirm hold else p.commutate m .ramp false
    | .align _ | .closed _ _ _ _ _ => p
  | none => p

/-- R84, R87: the scheduled DETECTED commutation of a motor comes due. -/
def Part.detectedDue (p : Part) (m : Slot) : Part :=
  match (p.motor m).seqr.run.bind SeqRun.sched with
  | some c => p.commutate m c.kind c.late
  | none => p

/-- R85: the search timeout of a motor expires. -/
def Part.timeoutDue (p : Part) (m : Slot) : Part :=
  match (p.motor m).seqr.run with
  | some r =>
    match r.data with
    | .closed tRef tStep f lost limit =>
      if limit ≤ lost + 1 then p.stall m r.step limit
      else
        ((p.modRun m fun r => { r with data := .closed tRef tStep (min (f + 1) 15) (lost + 1) limit }).modMotor m fun q =>
          q.modSeqr fun s => { s with timeouts := bump s.timeouts }).commutate m .timeout false
    | .align _ | .ramp _ _ _ => p
  | none => p

/-- RAMP_COMMUTATION (R76, R78). -/
def execRampCommutation (m : Slot) (s : State) : Host.Outcome State Fault Refusal :=
  .next { s with part := s.part.takeTimed (.rampCommutation m) fun p => p.rampDue m }

/-- DETECTED_COMMUTATION (R87). -/
def execDetectedCommutation (m : Slot) (s : State) : Host.Outcome State Fault Refusal :=
  .next { s with part := s.part.takeTimed (.detectedCommutation m) fun p => p.detectedDue m }

/-- SEARCH_TIMEOUT (R85). -/
def execSearchTimeout (m : Slot) (s : State) : Host.Outcome State Fault Refusal :=
  .next { s with part := s.part.takeTimed (.searchTimeout m) fun p => p.timeoutDue m }

end Sys2Proof.Machine
end

