-- ==== Sys2Proof/Machine/Pins.lean ====
section
/-! DEFINITION. The comparator inputs: OC_PIN_FALL and OC_PIN_RISE (R140). -/

namespace Sys2Proof.Machine

/-- R140, R143: the trip event of a falling edge; its period is the last one begun when the motor is RUNNING. -/
def Part.ocEvent (p : Part) (m : Slot) : TripEvent :=
  { cause := .ocPin, period := if p.running m then (p.motor m).lastPeriod else none, value := 0, phase := none }

/-- R140: a change from HIGH to LOW. -/
def Part.ocFall (p : Part) (m : Slot) : Part :=
  (p.modMotor m fun q => { q with prot := { q.prot with pinHigh := false, edges := bump q.prot.edges } }).trip (p.ocEvent m) m

/-- OC_PIN_FALL (R140). While EN is low the input is not followed; an input that is LOW already has no edge. -/
def execOcPinFall (m : Slot) (s : State) : Host.Outcome State Fault Refusal :=
  .next { s with part := if s.part.en && (s.part.motor m).prot.pinHigh then (s.part.ocFall m).settle else s.part }

/-- OC_PIN_RISE (R140): the level only. -/
def execOcPinRise (m : Slot) (s : State) : Host.Outcome State Fault Refusal :=
  .next { s with part := if s.part.en then s.part.modMotor m fun q => { q with prot := { q.prot with pinHigh := true } }
                         else s.part }

end Sys2Proof.Machine
end

