-- ==== Sys2Proof/Machine/Records.lean ====
section
/-! DEFINITION. READ_RECORD and WRITE_RECORD (R155, R156, R160, R168, R169, R174) and BAD_REQUEST (R167). -/

namespace Sys2Proof.Machine

/-- The answer of a management request that changes nothing. -/
def Part.answer (p : Part) (code : ReplyCode) (data : List Byte) : (ReplyCode × List Byte) × Part := ((code, data), p)

/-- The record and the segment that a target names, when both exist (R168). -/
def targetOf (region : BitVec 4) (segment : BitVec 2) (index : Byte) : Option RecordId :=
  match recordOf region index with
  | some r => if segment.toNat ≤ r.lastSegment then some r else none
  | none => none

/-! ## Reading -/

/-- The words of a segment that the record has. -/
def RecordId.segmentWords (r : RecordId) (segment : Nat) : List Nat :=
  ([0, 1, 2, 3, 4, 5].map (6 * segment + ·)).filter (· < r.words)

/-- R168: the four bytes of a word; an invalid word travels as zeros. -/
def Store.wordBytes (st : Store) (r : RecordId) (k : Nat) : List Byte :=
  let w := st.word (r.pos k)
  if w.valid then r.linkBytes k w.fields else [0#8, 0#8, 0#8, 0#8]

/-- R168: the valid marks of a segment's words, its first word in bit 0 (log 13). -/
def Store.segmentMarks (st : Store) (r : RecordId) (segment : Nat) : Byte :=
  byte ((List.zipWith (fun k i => if (st.word (r.pos k)).valid then 2 ^ i else 0) (r.segmentWords segment) (List.range 6)).sum)

/-- R168: the reply data of READ_RECORD, 26 bytes. -/
def Store.segmentData (st : Store) (r : RecordId) (segment : Nat) : List Byte :=
  let words := ((r.segmentWords segment).map (st.wordBytes r)).flatten
  [Config.segmentByte segment (st.recordValid r), st.segmentMarks r segment] ++ words ++
    List.replicate (24 - words.length) 0#8

/-- R160, R168: every word of the record is read; the reply carries the named segment. -/
def Part.readRecord (p : Part) (region : BitVec 4) (segment : BitVec 2) (index : Byte) : (ReplyCode × List Byte) × Part :=
  match targetOf region segment index with
  | none => p.answer .badRequest []
  | some r =>
    let p := p.readWords r.positions
    p.answer .ok (p.store.segmentData r segment.toNat)

/-! ## Writing -/

/-- Mask bit k selects word k (R155). -/
def selected (mask : BitVec 16) (k : Nat) : Bool := mask.getLsbD k

/-- The record's words that the mask selects. -/
def RecordId.selectedWords (r : RecordId) (mask : BitVec 16) : List Nat := (List.range r.words).filter (selected mask)

/-- R155: the mask selects every word of the record. -/
def RecordId.fullMask (r : RecordId) (mask : BitVec 16) : Bool := (List.range r.words).all (selected mask)

/-- R169: the selected words of a segment, with their four bytes each from the parameters. -/
def RecordId.wordsOf (r : RecordId) (segment : Nat) (mask : BitVec 16) (params : List Byte) : List (Nat × List Byte) :=
  let ks := (r.segmentWords segment).filter (selected mask)
  List.zipWith (fun k i => (k, (params.drop (4 * i)).take 4)) ks (List.range 6)

/-- The fields that a staged word gives. -/
def RecordId.stagedFields (r : RecordId) (words : List (Nat × List Byte)) (k : Nat) : List Nat :=
  r.readLink k ((words.lookup k).getD [])

/-- R155 step 2: the record as it would stand. -/
def Store.compose (st : Store) (r : RecordId) (mask : BitVec 16) (words : List (Nat × List Byte)) : List (List Nat) :=
  (List.range r.words).map fun k => if selected mask k then r.stagedFields words k else (st.word (r.pos k)).fields

/-- R156: the static fields of the record are protected. -/
def Part.protected (p : Part) (r : RecordId) : Bool :=
  match r with
  | .config => p.motors.toList.any fun q => q.slot.state != .off
  | .profile m => (p.motor m).slot.state != .off
  | .accept _ | .plan _ => false

/-- R156: a word's static fields would change; in an invalid word any static field counts as changed. DESIGN CHOICE (log
28): the stored value of a valid word is that of its fields as they were written, whatever bits are disturbed since, and
the comparison is no read through the store. -/
def StoreWord.staticChange (w : StoreWord) (specs : List FieldSpec) (fs : List Nat) : Bool :=
  (List.range specs.length).any fun i =>
    (specs.map (·.isStatic)).getD i false && (!w.valid || field w.fields i != field fs i)

/-- R156: the write would change a protected field. DESIGN CHOICE (log 30): an invalid word whose fields are all live
(PROFILE words 6, 8, 9 and 15) passes, also where the motor is TRIPPED, though R156's last sentence says that the record of
such a motor cannot be repaired before ACK_FAULT. -/
def Part.breaksStatic (p : Part) (r : RecordId) (mask : BitVec 16) (ws : List (List Nat)) : Bool :=
  p.protected r && (r.selectedWords mask).any fun k => (p.store.word (r.pos k)).staticChange (r.specs k) (ws.getD k [])

/-- R93: the motor states in which a PLAN write is checked for consistency. -/
def MotorState.checksPlan : MotorState → Bool
  | .startPending | .running => true
  | .off | .ready | .safeStop | .tripped | .lockedOut => false

/-- R93: PLAN m as it would stand against PROFILE m. DESIGN CHOICE (log 15): word 0 of PROFILE m is read through the store,
also by a write with a full mask, of which R155 says that it reads nothing; the read may correct the word, or make it invalid
with its notice and the trip of a RUNNING motor. A read that gives no data leaves the check unjudged, unless it has taken
the motor out of RUNNING. -/
def Part.planMismatch (p : Part) (m : Slot) (es : List PlanEntry) : Bool × Part :=
  if (p.motor m).slot.state.checksPlan then
    match p.readWord ((RecordId.profile m).pos 0) with
    | (some fs, p) => (!planConsistent (driveModeOf (field fs 0)) (senseOf (field fs 1)) es, p)
    | (none, p) => ((p.motor m).slot.state.checksPlan && !Config.planUnjudged, p)
  else (false, p)

/-- R155 step 4: the checks of a PLAN write; OK for the other records. -/
def Part.checkPlan (p : Part) (r : RecordId) (ws : List (List Nat)) : ReplyCode × Part :=
  match r with
  | .plan m =>
    if 6 < planBudget (planEntries ws) then (.planTooLarge, p)
    else
      match p.planMismatch m (planEntries ws) with
      | (true, p) => (.planMismatch, p)
      | (false, p) => (.ok, p)
  | .config | .accept _ | .profile _ => (.ok, p)

/-- R155 step 5: the selected words stored. -/
def Store.putWords (st : Store) (r : RecordId) (mask : BitVec 16) (ws : List (List Nat)) : Store :=
  (r.selectedWords mask).foldl (fun st k => st.put (r.pos k) (ws.getD k [])) st

/-- R3: an accepted CONFIG write that leaves another P than the one in force restarts the master cycle. -/
def Part.followP (p : Part) (r : RecordId) (newP : Nat) : Part :=
  if r = .config ∧ newP ≠ p.tb.p then p.restartCycle newP else p

/-- R155, steps 2 to 5, on a record whose unselected words can be read. -/
def Part.storeRecord (p : Part) (r : RecordId) (mask : BitVec 16) (words : List (Nat × List Byte)) : ReplyCode × Part :=
  let ws := p.store.compose r mask words
  if p.breaksStatic r mask ws then (.refusedStatic, p)
  else if !r.fieldsOk p.tb.p ws then (.refusedField, p)
  else
    match p.checkPlan r ws with
    | (.ok, p) => (.ok, (p.modStore (·.putWords r mask ws)).followP r (recField ws 0 0))
    | (code, p) => (code, p)

/-- R155: the write. Without a full mask the unselected words are read first. -/
def Part.writeRecord (p : Part) (r : RecordId) (mask : BitVec 16) (words : List (Nat × List Byte)) : ReplyCode × Part :=
  if r.fullMask mask then p.storeRecord r mask words
  else
    let p := p.readWords (((List.range r.words).filter fun k => !selected mask k).map r.pos)
    if p.store.recordValid r then p.storeRecord r mask words else (.incomplete, p)

/-! ## Staging (R169) -/

/-- The staging is given up with an answer. -/
def Part.dropStaging (p : Part) (code : ReplyCode) : (ReplyCode × List Byte) × Part :=
  (p.modLink fun l => { l with staging := none }).answer code []

/-- A WRITE_RECORD frame (R169). -/
structure WriteFrame where
  tag : Byte
  region : BitVec 4
  segment : BitVec 2
  last : Bool
  index : Byte
  mask : BitVec 16
  params : List Byte
  deriving DecidableEq, Repr

/-- R169 step 3: the staging that the frame opens or continues; none when it does not agree with the open one. DESIGN
CHOICE (log 29): all sixteen bits of the mask must agree, those beyond the record's words too. -/
def WriteFrame.stage (f : WriteFrame) (r : RecordId) (held : Option Staging) : Option Staging :=
  let words := r.wordsOf f.segment.toNat f.mask f.params
  if f.segment = 0#2 then
    some { region := f.region, index := f.index, mask := f.mask, tag := f.tag, next := 1, words := words }
  else
    match held with
    | some st =>
      if st.region = f.region ∧ st.index = f.index ∧ st.mask = f.mask ∧ st.tag = f.tag ∧ st.next = f.segment.toNat then
        some { st with next := st.next + 1, words := st.words ++ words }
      else none
    | none => none

/-- R169 step 5: no selected word lies in a segment beyond the frame's. -/
def WriteFrame.coversMask (f : WriteFrame) (r : RecordId) : Bool :=
  (r.selectedWords f.mask).all fun k => decide (k / 6 ≤ f.segment.toNat)

/-- R169: a WRITE_RECORD frame. -/
def Part.writeFrame (p : Part) (degraded : Bool) (f : WriteFrame) : (ReplyCode × List Byte) × Part :=
  match targetOf f.region f.segment f.index with
  | none => p.dropStaging .badRequest
  | some r =>
    if degraded then p.dropStaging .degraded
    else
      match f.stage r p.link.staging with
      | none => p.dropStaging .badRequest
      | some st =>
        if !f.last then (p.modLink fun l => { l with staging := some st }).answer .ok [byte st.next]
        else if !f.coversMask r then p.dropStaging .badRequest
        else
          let w := (p.modLink fun l => { l with staging := none }).writeRecord r f.mask st.words
          w.2.answer w.1 []

/-! ## The commands -/

/-- READ_RECORD (R160, R168). -/
def execReadRecord (tag : Byte) (region : BitVec 4) (segment : BitVec 2) (index : Byte) (s : State) :
    Host.Outcome State Fault Refusal :=
  .next { s with part := s.part.takeRequest tag 1#8 fun _ p => p.readRecord region segment index }

/-- WRITE_RECORD (R155, R169). -/
def execWriteRecord (tag : Byte) (region : BitVec 4) (segment : BitVec 2) (last : Bool) (index : Byte) (mask : BitVec 16)
    (params : List Byte) (s : State) : Host.Outcome State Fault Refusal :=
  let f : WriteFrame :=
    { tag := tag, region := region, segment := segment, last := last, index := index, mask := mask, params := params }
  .next { s with part := s.part.takeRequest tag 2#8 fun degraded p => p.writeFrame degraded f }

/-- The request code as sent: that of MOTOR_CMD for an unknown action (R173). -/
def sentCode : UnknownCode → Byte
  | .request code => code
  | .action _ => 3#8

/-- The data of the reply to a BAD_REQUEST: the motor's state for a MOTOR_CMD of an unknown action (R19), and none where there
is no such motor or no such request (R167; log 24). -/
def Part.refusalData (p : Part) : UnknownCode → List Byte
  | .request _ => []
  | .action motor =>
    match slotOfNat motor.toNat with
    | some m => [byte (p.motor m).slot.state.num]
    | none => []

/-- BAD_REQUEST (R19, R167): refused. -/
def execBadRequest (tag : Byte) (code : UnknownCode) (s : State) : Host.Outcome State Fault Refusal :=
  .next { s with part := s.part.takeRequest tag (sentCode code) fun _ p => p.answer .badRequest (p.refusalData code) }

end Sys2Proof.Machine
end

