-- ==== Sys2Proof/Machine/Resets.lean ====
section
/-! DEFINITION. The resets and the fall of EN: POWER_ON, EN_FALL, ENABLE_RESET, RESET_PART (R15, R32 to R35, R47, R70, R91,
R109, R123, R124, R139, R151, R161, R172). -/

namespace Sys2Proof.Machine

/-- A transfer in progress whose end will not be taken (R139, R162). -/
def Transfer.cut : Transfer → Transfer
  | .active _ _ _ _ | .ignored => .ignored
  | .absent => .absent

/-- POWER_ON (R15, R33): every block at its power-on values, with the levels at EN and at the comparator inputs. -/
def Part.powerOn (p : Part) (enHigh : Bool) (pins : Triple Bool) : Part :=
  { (Part.poweredOn enHigh pins).modUp fun u => { u with transfer := p.up.transfer.cut } with
    nextSched := p.nextSched, free := p.free }

/-! ## EN low -/

/-- R15: P of CONFIG when CONFIG is valid, else 16000, as the store stands. -/
def Store.resetP (st : Store) : Nat :=
  if st.recordValid .config then field (st.word (RecordId.config.pos 0)).fields 0 else 16000

/-- A motor at the falling edge of EN (R32): gates off, its state kept; the timebase's part of it at the values of R15. -/
def Motor.enFall (q : Motor) (now : Tick) : Motor :=
  { q with gates := q.gates.enFall now, pace := { q.pace with trim := 0, trimLoss := 0 } }

/-- EN_FALL (R32, R15, R123). -/
def Part.enFall (p : Part) : Part :=
  { p with
    en := false
    motors := p.motors.map fun (q : Motor) => q.enFall p.now
    tb := .initial p.store.resetP
    up := { p.up with transfer := p.up.transfer.cut } }

/-! ## The enable reset and RESET_PART -/

/-- A motor after the enable reset, with the level at its comparator input (R33, R47, R70, R91, R109, R124, R151). -/
def Motor.enableReset (pinHigh : Bool) : Motor := .initial pinHigh

/-- R34: a motor after RESET_PART: OFF, but a motor in LOCKED_OUT keeps its state and its record; the comparator level is
unchanged (R151). -/
def Motor.resetPart (q : Motor) : Motor :=
  let q' := Motor.initial q.prot.pinHigh
  if q.slot.state = .lockedOut then
    { q' with slot := { q'.slot with state := .lockedOut, fault := q.slot.fault } }
  else q'

/-- R15: P in force after an enable reset or RESET_PART, CONFIG word 0 read through the store when CONFIG is valid. No
motor is RUNNING here, so that the read trips none. -/
def Part.resetP (p : Part) : Nat × Part :=
  if p.store.recordValid .config then
    match p.readWord (RecordId.config.pos 0) with
    | (some fs, p) => (field fs 0, p)
    | (none, p) => (16000, p)
  else (16000, p)

/-- What the enable reset and RESET_PART do alike, after the motors: the timebase (R15), the sampling unit (R124), the
upstream queues (R139), the supervisor (R151), the scrubber (R161) and the link (R172). Notices of the read of P are
given up with the queue. -/
def Part.resetBlocks (p : Part) : Part :=
  let r := p.resetP
  let p := r.2
  { p with
    tb := .initial r.1
    sampler := .initial
    up := { Upstream.initial with nextId := p.up.nextId, transfer := p.up.transfer.cut }
    bus := .initial
    store := { p.store with scrubPos := 0, passes := 0 }
    link := .initial
    outbox := [] }

/-- ENABLE_RESET (R33, R35). -/
def Part.enableReset (p : Part) (pins : Triple Bool) : Part :=
  let p := { p with en := true, motors := pins.map Motor.enableReset }.resetBlocks
  { p with cause := { p.cause with enable := true, soft := false } }

/-- RESET_PART's own effect (R34, R35, R172). The transfer that carried it ends with it. -/
def Part.resetPart (p : Part) : Part :=
  let p := { p with motors := p.motors.map Motor.resetPart }.resetBlocks
  { p with cause := { p.cause with soft := true } }

/-- R172: RESET_PART, refused with DEGRADED in DEGRADED. -/
def Part.doResetPart (p : Part) (degraded : Bool) : (ReplyCode × List Byte) × Part :=
  if degraded then ((.degraded, []), p) else ((.ok, []), p.resetPart)

/-! ## The commands -/

/-- POWER_ON (R15). -/
def execPowerOn (enHigh : Bool) (pins : Triple Bool) (s : State) : Host.Outcome State Fault Refusal :=
  .next { s with part := s.part.powerOn enHigh pins }

/-- EN_FALL (R32); with EN low already there is no edge. -/
def execEnFall (s : State) : Host.Outcome State Fault Refusal :=
  .next { s with part := if s.part.en then s.part.enFall else s.part }

/-- ENABLE_RESET (R33). -/
def execEnableReset (pins : Triple Bool) (s : State) : Host.Outcome State Fault Refusal :=
  .next { s with part := s.part.enableReset pins }

/-- RESET_PART (R34, R172). Consumption and reset are taken in either order (R136): reset first, the consumption finds
nothing; the reply is the queue's one frame in both. -/
def execResetPart (tag : Byte) (s : State) : Host.Outcome State Fault Refusal :=
  .next { s with part := s.part.takeRequest tag 6#8 fun degraded p => p.doResetPart degraded }

end Sys2Proof.Machine
end

