-- ==== Sys2Proof/Machine/Status.lean ====
section
/-! DEFINITION. READ_STATUS (R170, with R14, R36, R48, R69, R91, R108, R125, R138, R150, R160) and CLEAR_COUNTS (R171). The
conventions that the layout table leaves open stand in log 13. -/

namespace Sys2Proof.Machine

/-! ## Items (R170) -/

/-- An item: bytes that no page splits. -/
abbrev Item := List Byte

def item8 (n : Nat) : Item := [byte n]

def item16 (n : Nat) : Item := half n

def item32 (t : Tick) : Item := bytes32 t

def itemFlag (b : Bool) : Item := item8 (b2n b)

def itemSigned (v : Int) : Item := signed16 v

/-- A duration in ticks that can exceed 65535. -/
def itemLong (n : Nat) : Item := bytes32 (BitVec.ofNat 32 n)

/-- An item of n bytes that may be absent: a presence byte, then the bytes or zeros. -/
def itemOpt {α : Type} (n : Nat) (f : α → Item) : Option α → Item
  | some a => 1#8 :: f a
  | none => 0#8 :: List.replicate n 0#8

/-- A list: a count byte, then its members' items. DESIGN CHOICE (log 13): the fields of a member are items of their own, so
that a page may end between any two of them; neither a list nor a member of it is kept whole on one page. -/
def itemList {α : Type} (f : α → List Item) (l : List α) : List Item := item8 l.length :: (l.map f).flatten

/-! ## Pages -/

/-- The pages that the items fill: an item that would cross a page's end starts the next page. `page` is the page under
way. -/
def pagesFrom (page : List Byte) : List Item → List (List Byte)
  | [] => [page ++ List.replicate (24 - page.length) 0#8]
  | i :: l =>
    if page.length + i.length ≤ 24 then pagesFrom (page ++ i) l
    else (page ++ List.replicate (24 - page.length) 0#8) :: pagesFrom i l

/-- R170: the reply to a page of a section's items. -/
def pageReply (items : List Item) (page : Byte) : ReplyCode × List Byte :=
  let pages := pagesFrom [] items
  match pages[page.toNat]? with
  | some bytes => (.ok, [page, byte pages.length] ++ bytes)
  | none => (.badRequest, [])

/-! ## Sections -/

/-- R14. -/
def Part.timebaseItems (p : Part) : List Item :=
  [item32 p.tb.tick, item16 p.tb.p, item16 p.tb.pos, item16 p.tb.len, itemFlag p.tb.locked, item8 p.tb.run,
   itemSigned p.tb.lastErr, itemSigned p.tb.lastAdj, item16 p.tb.slips, item16 p.tb.missing, item16 p.tb.extras] ++
    (p.motors.toList.map fun q => [itemSigned q.pace.trim, item16 q.pace.trimLoss]).flatten

/-- R36. DESIGN CHOICE (log 13): DT takes one byte, and each of the three gate copies is an item of its own that may be
absent. -/
def SlotBlock.items (s : SlotBlock) (sub : Option SubData) : List Item :=
  [item8 s.state.num, itemOpt 1 (fun d => item8 d.num) sub, itemFlag s.park, itemOpt 1 (fun c => item8 c.num) s.stopCause,
   itemOpt 1 (fun w => item8 w.origin.num) s.start, itemOpt 1 (fun c => item8 c.dt) s.copies,
   itemOpt 1 (fun c => item8 c.safe.num) s.copies, itemOpt 1 (fun c => item8 c.trip.num) s.copies]

/-- R48. DESIGN CHOICE (log 13): the number of records is sent once, as the count byte of their list, and a page may end
between any two fields of a record. -/
def SetQueue.items (s : SetQueue) : List Item :=
  itemList (fun (r : SetRec) =>
    [[r.tag], itemOpt 1 (fun a => [a]) r.applyAt, bytes16 r.duty.u, bytes16 r.duty.v, bytes16 r.duty.w]) s.recs ++
  [[s.applied.tag], item16 s.applied.duty.u, item16 s.applied.duty.v, item16 s.applied.duty.w, item8 s.starved,
   itemFlag s.overrunFlag, itemFlag s.staleFlag, item16 s.accepted, item16 s.overruns, item16 s.stales,
   item16 s.stateDiscards, item16 s.starvedValleys]

/-- The pulse of a phase of the last plan (R69). DESIGN CHOICE (log 13): each field of the last plan, and each phase of
the previous-width record, is an item of its own that may be absent. -/
def LastPlan.phaseItems (l : Option LastPlan) (x : Phase) : List Item :=
  [itemOpt 2 (fun (a : LastPlan) => item16 (a.pulse.get x).w) l, itemOpt 2 (fun (a : LastPlan) => item16 (a.pulse.get x).s) l,
   itemOpt 2 (fun (a : LastPlan) => item16 (a.pulse.get x).e) l]

/-- The gates of a motor in phase order, LOW before HIGH (DESIGN CHOICE, log 13: R69 gives them no order). -/
def GateStage.list (st : GateStage) : List Gate := (st.gate.toList.map fun pg => [pg.low, pg.high]).flatten

/-- R69. DESIGN CHOICE (log 13): shift A and shift B take two bytes each; the table of R170 names no shift. -/
def Motor.planItems (q : Motor) : List Item :=
  let l := q.planner.last
  (Phase.all.map (LastPlan.phaseItems l)).flatten ++
  [itemOpt 2 (fun (a : LastPlan) => item16 a.shA) l, itemOpt 2 (fun (a : LastPlan) => item16 a.shB) l,
   itemOpt 2 (fun (a : LastPlan) => item16 a.len) l, itemOpt 2 (fun (a : LastPlan) => item16 a.figE) l] ++
  (Phase.all.map fun x => itemOpt 1 (fun (c : PerPhase WidthClass) => item8 (c.get x).num) q.planner.prev) ++
  (q.gates.list.map fun g => itemFlag g.on) ++ (q.gates.list.map fun g => itemFlag g.pend.isSome) ++
  [item16 q.planner.clampZero, item16 q.planner.clampFull, item16 q.planner.shiftA, item16 q.planner.shiftB,
   item16 q.planner.refused, item16 q.gates.delays]

/-- What the sub-phases hold, each absent outside its own (R91). -/
def SubData.alignCount : SubData → Option Nat
  | .align n => some n
  | .ramp _ _ _ | .closed _ _ _ _ _ => none

def SubData.rampPart : SubData → Option (Nat × Nat × Nat)
  | .ramp t c h => some (t, c, h)
  | .align _ | .closed _ _ _ _ _ => none

def SubData.closedPart : SubData → Option (Tick × Nat × Nat × Nat × Nat)
  | .closed tRef tStep f lost limit => some (tRef, tStep, f, lost, limit)
  | .align _ | .ramp _ _ _ => none

/-- The sequencer fields of R91. DESIGN CHOICE (log 13): each field is an item of its own that may be absent, those of
the previous sample and of the scheduled commutation too. -/
def Motor.seqItems (q : Motor) : List Item :=
  let run := q.seqr.run
  let ramp := run.bind (·.data.rampPart)
  let closed := run.bind (·.data.closedPart)
  let search := run.bind (·.search)
  let prev := search.bind (·.prev)
  let sched := run.bind (·.sched)
  [itemOpt 1 (fun (r : SeqRun) => item8 r.step.val) run, itemOpt 2 (fun (r : SeqRun) => item16 r.pulse.w) run,
   itemOpt 2 (fun (r : SeqRun) => item16 r.pulse.s) run, itemOpt 2 (fun (r : SeqRun) => item16 r.pulse.e) run,
   itemOpt 2 item16 (run.bind (·.data.alignCount)), itemOpt 4 (fun (t, _, _) => itemLong t) ramp,
   itemOpt 1 (fun (_, c, _) => item8 c) ramp, itemOpt 1 (fun (_, _, h) => item8 h) ramp,
   itemOpt 1 (fun (se : Search) => item8 (if se.searching then 0 else 1)) search,
   itemOpt 2 (fun (s : PrevSample) => itemSigned s.x) prev, itemOpt 4 (fun (s : PrevSample) => item32 s.instant) prev,
   itemOpt 4 (fun (t, _) => item32 t) closed, itemOpt 4 (fun (_, t, _) => itemLong t) closed,
   itemOpt 1 (fun (_, _, f, _) => item8 f) closed, itemOpt 1 (fun (_, _, _, n, _) => item8 n) closed,
   itemOpt 1 (fun (_, _, _, _, n) => item8 n) closed,
   itemOpt 4 (fun (c : SchedComm) => item32 c.instant) sched, itemOpt 1 (fun (c : SchedComm) => item8 c.kind.num) sched,
   itemOpt 1 (fun (c : SchedComm) => itemFlag c.late) sched,
   itemOpt 1 (fun (c : PostComm) => item8 c.kind.num) (run.bind (·.post)), itemOpt 4 item32 (run.bind (·.timeout))] ++
  itemList (fun (c : CommEntry) =>
    [item16 c.carrierTime, item8 c.step.val, item8 c.kind.num, itemFlag c.late, itemFlag c.postponed])
    (q.scheds.latest.elim [] Schedule.comms) ++
  [item16 q.seqr.detected, item16 q.seqr.early, item16 q.seqr.late, item16 q.seqr.timeouts, item16 q.seqr.ramps,
   item16 q.seqr.postponed]

/-- A request of the most recent schedule (R108). DESIGN CHOICE (log 13): the three bounds of its window are an item each
that may be absent. -/
def Request.items (r : Request) : List Item :=
  [item8 r.entry.val, [r.tag], item8 r.kind.num] ++ itemList (fun (c : Fin 16) => [item8 c.val]) r.channels ++
  [item8 r.channels.length, itemOpt 2 (fun (a, _, _) => item16 a) r.window, itemOpt 2 (fun (_, b, _) => item16 b) r.window,
   itemOpt 2 (fun (_, _, c) => item16 c) r.window, item8 r.status.num, itemOpt 4 item32 r.frozenAt]

/-- R108. -/
def Motor.finderItems (q : Motor) : List Item :=
  itemList Request.items (q.scheds.latest.elim [] (·.reqs)) ++ [item16 q.finder.placed, item16 q.finder.unmeasurable]

/-- The fields of a fault record (R143), each absent in an empty record. DESIGN CHOICE (log 13): each field is an item of
its own that may be absent. -/
def faultItems (r : Option FaultRecord) : List Item :=
  let second := r.bind (·.second)
  [itemOpt 1 (fun (a : FaultRecord) => item8 a.cause.num) r, itemOpt 4 (fun (a : FaultRecord) => item32 a.instant) r,
   itemOpt 1 (fun (n : Byte) => [n]) (r.bind (·.period)), itemOpt 2 (fun (a : FaultRecord) => itemSigned a.value) r,
   itemOpt 1 (fun (a : FaultRecord) => item8 (phaseNum a.phase)) r,
   itemOpt 1 (fun (a : SecondCause) => item8 a.cause.num) second, itemOpt 4 (fun (a : SecondCause) => item32 a.instant) second,
   itemOpt 2 (fun (a : SecondCause) => itemSigned a.value) second,
   itemOpt 1 (fun (a : SecondCause) => item8 (phaseNum a.phase)) second]

/-- R150, section MOTOR m; the comparator level is 0 for HIGH and 1 for LOW (R173, last sentence of its first table). -/
def Motor.protItems (q : Motor) : List Item :=
  item8 (if q.prot.pinHigh then 0 else 1) :: faultItems q.slot.fault ++
  [item16 q.prot.edges, item16 q.prot.ocTrips, item16 q.prot.currentTrips, item16 q.prot.stallTrips, item16 q.prot.tableTrips,
   item16 q.prot.lockouts]

/-- The section MOTOR m, in the order of R170. -/
def Motor.items (q : Motor) : List Item :=
  q.slot.items (q.seqr.run.map SeqRun.data) ++ q.setq.items ++ q.planItems ++ q.seqItems ++ q.finderItems ++ q.protItems

/-- A request as it is named in the section SAMPLER (R125): its motor, or 3 for the bus supervisor, its entry index and its
tag. DESIGN CHOICE (log 13): a FIFO entry's request, of which R125 says no more, is named like that of a hold; the bus request
has entry 0 and tag 0. -/
def ReqRef.bytes : ReqRef → Item
  | .motor m _ entry tag => [byte m.toNat, byte entry.val, tag]
  | .bus => [3#8, 0#8, 0#8]

/-- A hold: form 0 FREE, form 1 HELD (R125). -/
def Hold.item : Hold → Item
  | .free since _ => 0#8 :: bytes32 since
  | .held channel req t => [1#8, byte channel.val] ++ req.bytes ++ bytes32 t

def BusReq.num : BusReq → Nat
  | .absent => 0
  | .waiting _ _ _ => 1
  | .frozen => 2

/-- R125. The converter is an item of two forms, IDLE, and CONVERTING with its completion instant. DESIGN CHOICE (log 13): a
FIFO entry is its hold's number in one byte, its channel, and its request as `ReqRef.bytes` names it. -/
def Part.samplerItems (p : Part) : List Item :=
  let s := p.sampler
  (s.holds.toList.map Hold.item) ++
  [match s.conv with
    | none => [0#8]
    | some t => 1#8 :: bytes32 t] ++
  itemList (fun (e : FifoEntry) => [item8 e.hold.toNat, item8 e.channel.val] ++ e.req.bytes.map fun b => [b]) s.fifo ++
  itemList (fun (w : WaitItem) =>
    (w.req.bytes.map fun b => [b]) ++ [item8 w.holds, item32 w.planned, item32 w.latest]) s.waiting ++
  [item8 s.busReq.num, itemOpt 2 (fun (c : Code) => item16 c.toNat) s.lastCode] ++
  (p.motors.toList.map fun q =>
    [item16 q.samp.frozen, item16 q.samp.deferred, item16 q.samp.missedDeadline, item16 q.samp.missedState]).flatten ++
  [item16 s.conversions, item16 s.rails, item16 s.busFrozen, item16 s.busMissed, item8 s.highWater]

/-- The write staging (R170): region, index, mask, next segment. DESIGN CHOICE (log 13): one item that may be absent, with two
bytes for the mask and one for each other field. -/
def stagingItem : Option Staging → Item :=
  itemOpt 5 fun s => item8 s.region.toNat ++ [s.index] ++ bytes16 s.mask ++ item8 s.next

/-- The motor and the period number of a SAMPLE frame (R138). -/
def FrameBody.sampleOf : FrameBody → Option SampleFrame
  | .sample f => some f
  | .reply _ | .notice _ => none

/-- R138. DESIGN CHOICE (log 13): the number of queued frames is sent once, as their list's count byte; the motor and the
period number of a frame are an item each that may be absent. -/
def Upstream.items (u : Upstream) : List Item :=
  itemList (fun (f : QFrame) =>
    [item8 f.body.kind, itemOpt 1 (fun (s : SampleFrame) => item8 s.motor.toNat) f.body.sampleOf,
     itemOpt 1 (fun (s : SampleFrame) => [s.period]) f.body.sampleOf]) u.queue ++
  (u.slots.toList.map fun r => itemOpt 4 (fun (a : FaultRecord) => item32 a.instant) r) ++
  [itemFlag u.dropped, item16 u.built, item16 u.sent, item16 u.lost] ++ u.builtBy.toList.map item16 ++
  [item16 u.displaced, item16 u.refused, item16 u.replyLost, item16 u.noticeLost, item16 u.faultSent, item16 u.replySent,
   item16 u.noticeSent, item16 u.idleSent, item16 u.unconsumed]

/-- The section LINK (R170). DESIGN CHOICE (log 13): the last unmatched header is an item of four bytes that may be absent. -/
def Part.linkItems (p : Part) : List Item :=
  let l := p.link
  [item8 l.state.num, item16 l.errors, item8 l.recovery, itemOpt 4 (fun (h : BitVec 32) => bytes32 h) l.unmatched,
   stagingItem l.staging,
   item16 l.good, item16 l.badCheck, item16 l.aborted, item16 l.unknownKind, item16 l.routed, item16 l.unmatchedCount,
   item16 l.droppedBy, item16 l.executed, item16 l.ignored, item16 l.degradedEntries, item16 l.lostEntries] ++ p.up.items

/-- The valid marks of eight words from a position on, the first in bit 0. -/
def Store.marksByte (st : Store) (start : Nat) : Byte :=
  byte (((List.range 8).map fun i =>
    if h : start + i < 82 then (if (st.word ⟨start + i, h⟩).valid then 2 ^ i else 0) else 0).sum)

/-- R160: the valid marks are one item of 11 bytes. DESIGN CHOICE (log 13): a position of the store takes one byte. -/
def Store.items (st : Store) : List Item :=
  [(List.range 11).map fun k => st.marksByte (8 * k), item8 st.corrected, item8 st.uncorrectable,
   itemOpt 1 item8 st.lastCorrected, itemOpt 1 item8 st.lastUncorrectable, item8 st.scrubPos.val, item16 st.passes]

/-- The section DEVICE (R35, R150); UV BELOW, OV HIGH and an asserted fault output are 1. -/
def Part.deviceItems (p : Part) : List Item :=
  [itemFlag p.cause.power, itemFlag p.cause.enable, itemFlag p.cause.soft, itemFlag p.bus.uvBelow, itemFlag p.bus.ovHigh,
   item16 p.bus.uvCross, item16 p.bus.ovCross, itemFlag p.faultOut]

/-- The items of a section (R170). -/
def Part.items (p : Part) : SectionId → List Item
  | .timebase => p.timebaseItems
  | .motor m => (p.motor m).items
  | .sampler => p.samplerItems
  | .link => p.linkItems
  | .store => p.store.items
  | .device => p.deviceItems

/-- R170: the snapshot of a section, one page of it. -/
def Part.readStatus (p : Part) (sect : BitVec 4) (page : Byte) : (ReplyCode × List Byte) × Part :=
  match sectionOf sect with
  | none => p.answer .badRequest []
  | some sc => (pageReply (p.items sc) page, p)

/-! ## CLEAR_COUNTS (R171) -/

/-- R14. -/
def Part.clearTimebase (p : Part) : Part :=
  let p := p.modTb fun t => { t with slips := 0, missing := 0, extras := 0 }
  { p with motors := p.motors.map fun (q : Motor) => q.modPace fun t => { t with trimLoss := 0 } }

/-- R48, R69, R91, R108, R150. -/
def Motor.clearCounts (q : Motor) : Motor :=
  { q with
    setq := { q.setq with accepted := 0, overruns := 0, stales := 0, stateDiscards := 0, starvedValleys := 0 }
    planner := { q.planner with clampZero := 0, clampFull := 0, shiftA := 0, shiftB := 0, refused := 0 }
    gates := { q.gates with delays := 0 }
    seqr := { q.seqr with detected := 0, early := 0, late := 0, timeouts := 0, ramps := 0, postponed := 0 }
    finder := { placed := 0, unmeasurable := 0 }
    prot := { q.prot with edges := 0, ocTrips := 0, currentTrips := 0, stallTrips := 0, tableTrips := 0, lockouts := 0 } }

/-- R126. -/
def Part.clearSampler (p : Part) : Part :=
  let p := p.modSampler fun s => { s with conversions := 0, rails := 0, busFrozen := 0, busMissed := 0, highWater := 0 }
  { p with motors := p.motors.map fun (q : Motor) => q.modSamp fun _ => .initial }

/-- The SAMPLE frames queued; those of a motor (R138). -/
def Upstream.samples (u : Upstream) : List SampleFrame := u.queue.filterMap (·.body.sampleOf)

def Upstream.samplesOf (u : Upstream) (m : Slot) : Nat := (u.samples.filter (·.motor == m)).length

/-- R138. -/
def Upstream.clearCounts (u : Upstream) : Upstream :=
  { u with
    built := u.samples.length, sent := 0, lost := 0
    builtBy := ⟨u.samplesOf .i0, u.samplesOf .i1, u.samplesOf .i2⟩
    displaced := 0, refused := 0, replyLost := 0, noticeLost := 0, faultSent := 0, replySent := 0, noticeSent := 0
    idleSent := 0, unconsumed := 0 }

/-- R171. -/
def Link.clearCounts (l : Link) : Link :=
  { l with
    good := 0, badCheck := 0, aborted := 0, unknownKind := 0, routed := 0, unmatchedCount := 0, droppedBy := 0
    executed := 0, ignored := 0, degradedEntries := 0, lostEntries := 0 }

/-- R160. -/
def Store.clearCounts (st : Store) : Store :=
  { st with corrected := 0, uncorrectable := 0, passes := 0, lastCorrected := none, lastUncorrectable := none }

/-- R35, R150. -/
def Part.clearDevice (p : Part) : Part :=
  { p.modBus fun b => { b with uvCross := 0, ovCross := 0 } with
    cause := { power := false, enable := false, soft := false } }

/-- R171. -/
def Part.clearSection (p : Part) : SectionId → Part
  | .timebase => p.clearTimebase
  | .motor m => p.modMotor m Motor.clearCounts
  | .sampler => p.clearSampler
  | .link => (p.modLink Link.clearCounts).modUp Upstream.clearCounts
  | .store => p.modStore Store.clearCounts
  | .device => p.clearDevice

def Part.clearCounts (p : Part) (sect : BitVec 4) : (ReplyCode × List Byte) × Part :=
  match sectionOf sect with
  | none => p.answer .badRequest []
  | some sc => (p.clearSection sc).answer .ok []

/-! ## The commands -/

/-- READ_STATUS (R170). -/
def execReadStatus (tag : Byte) (sect : BitVec 4) (page : Byte) (s : State) : Host.Outcome State Fault Refusal :=
  .next { s with part := s.part.takeRequest tag 4#8 fun _ p => p.readStatus sect page }

/-- CLEAR_COUNTS (R171). -/
def execClearCounts (tag : Byte) (sect : BitVec 4) (s : State) : Host.Outcome State Fault Refusal :=
  .next { s with part := s.part.takeRequest tag 5#8 fun _ p => p.clearCounts sect }

end Sys2Proof.Machine
end

