-- ==== Sys2Proof/Machine/Dispatch.lean ====
section
/-! DEFINITION. The meaning of every command: one arm for each constructor of Instr. -/

namespace Sys2Proof.Machine

def exec (i : Instr) (s : State) : Host.Outcome State Fault Refusal :=
  match i with
  | .powerOn enHigh pins => Sys2Proof.Machine.execPowerOn enHigh pins s
  | .enFall => Sys2Proof.Machine.execEnFall s
  | .enableReset pins => Sys2Proof.Machine.execEnableReset pins s
  | .masterCycleEnd => Sys2Proof.Machine.execMasterCycleEnd s
  | .syncEdge => Sys2Proof.Machine.execSyncEdge s
  | .firstValley m => Sys2Proof.Machine.execFirstValley m s
  | .valley m => Sys2Proof.Machine.execValley m s
  | .edge m => Sys2Proof.Machine.execEdge m s
  | .pendingTurnOn m x g => Sys2Proof.Machine.execPendingTurnOn m x g s
  | .rampCommutation m => Sys2Proof.Machine.execRampCommutation m s
  | .detectedCommutation m => Sys2Proof.Machine.execDetectedCommutation m s
  | .searchTimeout m => Sys2Proof.Machine.execSearchTimeout m s
  | .waitingListJoin m entry => Sys2Proof.Machine.execWaitingListJoin m entry s
  | .holdEligible h => Sys2Proof.Machine.execHoldEligible h s
  | .freeze => Sys2Proof.Machine.execFreeze s
  | .deadline r => Sys2Proof.Machine.execDeadline r s
  | .conversionComplete code => Sys2Proof.Machine.execConversionComplete code s
  | .busRequestPlace => Sys2Proof.Machine.execBusRequestPlace s
  | .ocPinFall m => Sys2Proof.Machine.execOcPinFall m s
  | .ocPinRise m => Sys2Proof.Machine.execOcPinRise m s
  | .transferStart => Sys2Proof.Machine.execTransferStart s
  | .idleFrame => Sys2Proof.Machine.execIdleFrame s
  | .setpoint stream header tag applyAt du dv dw => Sys2Proof.Machine.execSetpoint stream header tag applyAt du dv dw s
  | .badFrame why => Sys2Proof.Machine.execBadFrame why s
  | .abortedTransfer => Sys2Proof.Machine.execAbortedTransfer s
  | .readRecord tag region segment index => Sys2Proof.Machine.execReadRecord tag region segment index s
  | .writeRecord tag region segment last index mask params => Sys2Proof.Machine.execWriteRecord tag region segment last index mask params s
  | .arm tag motor => Sys2Proof.Machine.execArm tag motor s
  | .disarm tag motor => Sys2Proof.Machine.execDisarm tag motor s
  | .start tag motor => Sys2Proof.Machine.execStart tag motor s
  | .park tag motor => Sys2Proof.Machine.execPark tag motor s
  | .halt tag motor => Sys2Proof.Machine.execHalt tag motor s
  | .release tag motor => Sys2Proof.Machine.execRelease tag motor s
  | .ackFault tag motor => Sys2Proof.Machine.execAckFault tag motor s
  | .readStatus tag sect page => Sys2Proof.Machine.execReadStatus tag sect page s
  | .clearCounts tag sect => Sys2Proof.Machine.execClearCounts tag sect s
  | .resetPart tag => Sys2Proof.Machine.execResetPart tag s
  | .badRequest tag code => Sys2Proof.Machine.execBadRequest tag code s

end Sys2Proof.Machine
end

