-- ==== Sys2Proof/Machine/Step.lean ====
section
/-! DEFINITION. One step of the part: the command at the front of the queue; on an empty queue the part's own clock
(log 1): a timed event that is due now, or one tick. -/

namespace Sys2Proof.Machine

/-- One of the events whose turn it is; of several any one, by a free pick (log 3). -/
def Part.nextDue (p : Part) : Option Instr :=
  match p.dueNow with
  | [] => none
  | [e] => some e
  | e :: f :: l => (e :: f :: l)[Config.pick p.free % (l.length + 2)]?

/-- The part left to itself: while EN is low nothing happens (R32); an event that is due is taken; otherwise a tick
passes. -/
def idle (s : State) : Host.Outcome State Fault Refusal :=
  if !s.part.en then .next s
  else
    match s.part.nextDue with
    | some e => exec e { s with part := { s.part with free := s.part.free + 1 } }
    | none => .next { s with part := s.part.pass 1 }

/-- One step. -/
def step (s : State) : Host.Outcome State Fault Refusal :=
  match s.pending with
  | [] => idle s
  | c :: rest => exec c { s with pending := rest }

/-- The command that a table word spells, put at the front of the queue. -/
def State.withFetchWord (s : State) (nbits w : Nat) : State :=
  match decodeTableWord nbits w with
  | some c => { s with pending := c :: s.pending }
  | none => s

end Sys2Proof.Machine
end

