-- ==== Sys2Proof/Safety.lean ====
section
/-! DEFINITION. The terms in which the statements speak: what holds of the part between two commands and is kept by every
step, when a read of the store gives data, when a frame that ends is acted on, and what a motor is like once stopped. -/

namespace Sys2Proof.Machine

/-! ## The table store -/

/-- R157: a read of the word gives data: it is valid, its check code covers its own position, and at most one of its bits
is disturbed. -/
def Store.Readable (st : Store) (pos : Fin 82) : Prop := (st.word pos).valid = true ∧ (st.word pos).broken pos = false

def Store.ReadableAll (st : Store) (l : List (Fin 82)) : Prop := ∀ pos ∈ l, st.Readable pos

/-- R157: the store after reads that all gave data: only corrected words differ. -/
structure Store.Corrected (st t : Store) : Prop where
  fields : ∀ pos, (t.word pos).fields = (st.word pos).fields
  valid : ∀ pos, (t.word pos).valid = (st.word pos).valid
  scrubPos : t.scrubPos = st.scrubPos
  uncorrectable : t.uncorrectable = st.uncorrectable

/-! ## Between two commands -/

/-- No notice waits outside the general queue, and every complete period schedule has been handed to the frame builder
(R120, R127). -/
structure Part.Quiet (p : Part) : Prop where
  outbox : p.outbox = []
  handed : ∀ m, ∀ sc ∈ (p.motor m).scheds.latest.toList ++ (p.motor m).scheds.older, sc.complete = false

/-- The serial numbers of queued frames: all below the next one, none twice; a transfer carries a number given out. -/
structure Upstream.Numbered (u : Upstream) : Prop where
  below : ∀ f ∈ u.queue, f.id < u.nextId
  distinct : (u.queue.map (·.id)).Nodup
  carried : ∀ id, u.transfer.queuedId = some id → id < u.nextId

/-! ## The gates -/

/-- R65: the two gates of a phase are not on together. -/
def Part.NoShootThrough (p : Part) : Prop :=
  ∀ m x, ¬(((p.motor m).gates.gateAt x .low).on = true ∧ ((p.motor m).gates.gateAt x .high).on = true)

/-- All six gates off and no turn-on pending (R16, R17). -/
def GateStage.AllOff (st : GateStage) : Prop := ∀ x g, (st.gateAt x g).on = false ∧ (st.gateAt x g).pend = none

/-- R17, LOW_BRAKE: every HIGH gate off for good; every LOW gate on, or waiting for its turn-on. -/
def GateStage.Braking (st : GateStage) : Prop :=
  ∀ x, (st.gateAt x .high).on = false ∧ (st.gateAt x .high).pend = none ∧
    ((st.gateAt x .low).on = true ∨ (st.gateAt x .low).pend.isSome = true)

/-- The pattern of a safe action or a trip action (R16). -/
def GateStage.Holds (st : GateStage) : GateAction → Prop
  | .allOff => st.AllOff
  | .lowBrake => st.Braking

/-- R16: the motor's state holds all its gates off: OFF, READY, LOCKED_OUT, and START_PENDING from READY. -/
def SlotBlock.gatesOff (sl : SlotBlock) : Bool :=
  match sl.state with
  | .off | .ready | .lockedOut => true
  | .startPending => sl.start.any fun w => w.origin == .ready
  | .running | .safeStop | .tripped => false

/-- R16, R32, R162: a motor whose state holds its gates off, and every motor while EN is low, has all gates off; while EN
is low no transfer is under way but one that is ignored. -/
structure Part.HeldOff (p : Part) : Prop where
  gates : ∀ m, p.en = false ∨ (p.motor m).slot.gatesOff = true → (p.motor m).gates.AllOff
  transfer : p.en = false → p.up.transfer = .absent ∨ p.up.transfer = .ignored

/-! ## The slots -/

/-- What is present in each motor state: the tables at the heads of chapters 1, 2, 5 and 9; R9, R46. -/
structure Motor.Fits (q : Motor) : Prop where
  park : q.slot.park = true → q.slot.state = .running
  stopCause : q.slot.stopCause.isSome = true ↔ q.slot.state = .safeStop
  start : q.slot.start.isSome = true ↔ q.slot.state = .startPending
  fault : q.slot.fault.isSome = true ↔ q.slot.state = .tripped ∨ q.slot.state = .lockedOut
  noCopies : q.slot.state = .off → q.slot.copies = none
  copies : q.slot.state ≠ .off → q.slot.state ≠ .lockedOut → q.slot.copies.isSome = true
  carrier : q.pace.carrier.isSome = true ↔ q.slot.state = .running
  sequencer : q.seqr.run.isSome = true → q.slot.state = .running
  trim : q.pace.trim ≠ 0 → q.slot.state = .startPending ∨ q.slot.state = .running
  queue : q.setq.recs ≠ [] → q.slot.state = .ready ∨ q.slot.state = .startPending ∨ q.slot.state = .running

def Part.Fits (p : Part) : Prop := ∀ m, (p.motor m).Fits

/-! ## The sampling unit -/

def Hold.isHeld : Hold → Bool
  | .held _ _ _ => true
  | .free _ _ => false

/-- R111, R112: the FIFO's entries are exactly the values of the HELD holds, and the converter is IDLE exactly when the
FIFO is empty. -/
structure Sampler.Matched (s : Sampler) : Prop where
  entry : ∀ e ∈ s.fifo, ∃ t, s.holds.get e.hold = .held e.channel e.req t
  held : ∀ h, (s.holds.get h).isHeld = true → ∃ e ∈ s.fifo, e.hold = h
  distinct : (s.fifo.map (·.hold)).Nodup
  conv : s.conv = none ↔ s.fifo = []

/-! ## The queues and the link -/

/-- R39, R130, R164, R165: at most 3 records for a motor, at most 8 frames, an error count of at most 256, a recovery
run below 64 at the end of a command. -/
structure Part.Bounded (p : Part) : Prop where
  general : p.up.queue.length ≤ 8
  setpoints : ∀ m, (p.motor m).setq.recs.length ≤ 3
  errors : p.link.errors ≤ 256
  recovery : p.link.recovery < 64


/-- R138: sample frames are conserved while the built count has not reached 65535; the frames are numbered. -/
structure Upstream.Conserved (u : Upstream) : Prop where
  numbered : u.Numbered
  count : u.built < 65535 → u.built = u.sent + u.lost + u.samples.length

/-- R2, R153: P in force is an even number within 2000 to 16000, and so is the P that a valid word 0 of CONFIG holds. -/
structure Part.PeriodInRange (p : Part) : Prop where
  inForce : 2000 ≤ p.tb.p ∧ p.tb.p ≤ 16000 ∧ p.tb.p % 2 = 0
  stored : (p.store.word 0).valid = true →
    2000 ≤ field (p.store.word 0).fields 0 ∧ field (p.store.word 0).fields 0 ≤ 16000 ∧ field (p.store.word 0).fields 0 % 2 = 0

/-! ## A frame that is acted on -/

/-- R162 to R166: a good frame that ends now is taken and acted on, and the general queue has room for so many frames.
The last three are kept by every step (`Quiet`, `Numbered`) or are this frame's own room. -/
structure Part.Serving (p : Part) (room : Nat) : Prop where
  en : p.en = true
  taken : p.up.transfer ≠ .ignored
  notLost : p.link.errors < 256
  quiet : p.Quiet
  numbered : p.up.Numbered
  room : p.up.queue.length + room ≤ 8

/-- The end of a transfer: its upstream frame is consumed (R136); the model's own counter of free choices moves on. -/
def Part.transferEnded (p : Part) : Part :=
  match p.up.transfer with
  | .active _ _ _ _ => { p with up := p.up.consume, free := p.free + 1 }
  | .absent | .ignored => p

/-- R163, R164: a good frame counted. -/
def Link.took (l : Link) : Link := { l with good := bump l.good, errors := l.errors - 1 }

/-- R166: a management request counted as executed. -/
def Link.served (l : Link) : Link := { l.took with executed := bump l.executed }

/-- What every management request that is executed does beside its own effect: its transfer ends, it is counted, and its
reply joins the general queue (R136, R164, R166, R167). -/
def Part.replied (p : Part) (r : Reply) : Part :=
  { p.transferEnded with link := p.link.served, up := p.transferEnded.up.append (.reply r) }

end Sys2Proof.Machine

namespace Sys2Proof

open Machine

/-- A management request (R167). -/
def Instr.isRequest : Instr → Bool
  | .readRecord _ _ _ _ | .writeRecord _ _ _ _ _ _ _ | .arm _ _ | .disarm _ _ | .start _ _ | .park _ _ | .halt _ _ => true
  | .release _ _ | .ackFault _ _ | .readStatus _ _ _ | .clearCounts _ _ | .resetPart _ | .badRequest _ _ => true
  | .powerOn _ _ | .enFall | .enableReset _ | .masterCycleEnd | .syncEdge | .firstValley _ | .valley _ | .edge _ => false
  | .pendingTurnOn _ _ _ | .rampCommutation _ | .detectedCommutation _ | .searchTimeout _ => false
  | .waitingListJoin _ _ | .holdEligible _ | .freeze | .deadline _ | .conversionComplete _ | .busRequestPlace => false
  | .ocPinFall _ | .ocPinRise _ | .transferStart | .idleFrame | .setpoint _ _ _ _ _ _ _ | .badFrame _ => false
  | .abortedTransfer => false

/-- A good downstream frame (R163). -/
def Instr.isGoodFrame (c : Instr) : Bool :=
  c.isRequest ||
    match c with
    | .idleFrame | .setpoint _ _ _ _ _ _ _ => true
    | _ => false

/-- A command that a downstream frame is. -/
def Instr.isFrame (c : Instr) : Bool :=
  c.isGoodFrame ||
    match c with
    | .badFrame _ | .abortedTransfer => true
    | _ => false

/-- The motor number and the request tag of a MOTOR_CMD. -/
def Instr.motorCmd : Instr → Option (Byte × BitVec 4)
  | .arm tag n | .disarm tag n | .start tag n | .park tag n | .halt tag n | .release tag n | .ackFault tag n => some (tag, n)
  | _ => none

/-- R19: the states whose table entry for the action is REFUSED_STATE. -/
def Instr.refusedIn : Instr → MotorState → Bool
  | .arm _ _, st => [MotorState.ready, .startPending, .running, .safeStop, .tripped].contains st
  | .disarm _ _, st => [MotorState.startPending, .running, .safeStop, .tripped].contains st
  | .start _ _, st => [MotorState.off, .startPending, .running, .tripped].contains st
  | .park _ _, st => [MotorState.off, .ready, .safeStop, .tripped].contains st
  | .halt _ _, st => [MotorState.tripped].contains st
  | .release _ _, st => [MotorState.off, .ready, .startPending, .running, .tripped].contains st
  | .ackFault _ _, st => [MotorState.off, .ready, .startPending, .running, .safeStop].contains st
  | _, _ => false

/-- R164: the requests that are refused with DEGRADED in DEGRADED. -/
def Instr.gated : Instr → Bool
  | .arm _ _ | .start _ _ | .writeRecord _ _ _ _ _ _ _ | .resetPart _ => true
  | _ => false

end Sys2Proof

namespace Sys2Proof.Machine

/-! ## A motor that has stopped -/

/-- How many requests of a motor's schedules are placed or waiting (R117). -/
def Motor.unfrozenCount (q : Motor) : Nat :=
  (((q.scheds.latest.toList ++ q.scheds.older).map (·.reqs)).flatten.filter fun r => r.status == .waiting).length

/-- R117: the schedules a are the schedules b with f done to every request, but for the edges and the drive data of the
latest one, which may have been handed on (R120); an earlier one is given up only when none of its requests is frozen. -/
structure Schedules.Resolved (b a : Schedules) (f : Request → Request) : Prop where
  latest : ∀ sc, b.latest = some sc → ∃ sc', a.latest = some sc' ∧ (sc.handed = true → sc'.handed = true) ∧
    sc' = { sc with reqs := sc.reqs.map f, edges := sc'.edges, drive := sc'.drive, handed := sc'.handed }
  absent : b.latest = none → a.latest = none
  older : ∀ sc' ∈ a.older, ∃ sc ∈ b.older, sc' = { sc with reqs := sc.reqs.map f }
  kept : ∀ sc ∈ b.older, (∃ r ∈ sc.reqs, (f r).status = .frozen) → { sc with reqs := sc.reqs.map f } ∈ a.older

/-- R117: a request that is cancelled is MISSED; any other keeps its status, and a frozen one its instant, its codes and its
readings. It no longer belongs to the step in force (R80). -/
def Request.givenUp (r : Request) : Request :=
  { r with status := if r.status = .waiting then .missed else r.status, inStep := false }

/-- R28, R117, R119: the same when the motor leaves RUNNING; a frozen request is then one whose motor has not stayed RUNNING. -/
def Request.left (r : Request) : Request := { r.givenUp with stayed := false }

/-- R28: what holds of a motor right after it has left RUNNING or START_PENDING; p is the part before, t the part after. -/
structure Part.Stopped (p t : Part) (m : Slot) : Prop where
  park : (t.motor m).slot.park = false
  start : (t.motor m).slot.start = none
  trim : (t.motor m).pace.trim = 0
  carrier : (t.motor m).pace.carrier = none
  queue : (t.motor m).setq.recs = []
  flags : (t.motor m).setq.overrunFlag = false ∧ (t.motor m).setq.staleFlag = false
  starved : (t.motor m).setq.starved = 0
  plan : (t.motor m).planner.last = none ∧ (t.motor m).planner.prev = none
  sequencer : (t.motor m).seqr.run = none
  requests : (p.motor m).scheds.Resolved (t.motor m).scheds Request.left
  missed : (t.motor m).samp = { (p.motor m).samp with
    missedState := min ((p.motor m).samp.missedState + (p.motor m).unfrozenCount) 65535 }
  list : ∀ w ∈ t.sampler.waiting, w.ofMotor m = false

/-- The frame of what concerns one motor: the other motors, the timebase, EN, the supervisor's states, the reset causes,
the fault slots' transfer and the store but for corrections are as they were. -/
structure Part.Beside (p t : Part) (m : Slot) : Prop where
  others : ∀ k, k ≠ m → t.motor k = p.motor k
  tb : t.tb = p.tb
  en : t.en = p.en
  bus : t.bus = p.bus
  cause : t.cause = p.cause
  store : p.store.Corrected t.store

/-- Every word that the valley work of a motor can read gives data (R95): PROFILE m, PLAN m, and CONFIG word 3 with the bus
channel. -/
def Part.ValleyReadable (p : Part) (m : Slot) : Prop :=
  p.store.ReadableAll (RecordId.config.pos 3 :: ((RecordId.profile m).positions ++ (RecordId.plan m).positions))

/-- R43: the valley of the period is not one at which starvation stops the motor. -/
def Part.NotStarved (p : Part) (m : Slot) (period : Byte) : Prop :=
  ((p.motor m).setq.decide period (p.motor m).setq.recs).1 = .held →
    (p.motor m).setq.starved + 1 < field (p.store.profileWord m 15) 0

/-- R94, R96: the entries of PLAN m due in a period, in plan-entry order, as the words stand. -/
def Part.dueEntries (p : Part) (m : Slot) (period : Byte) : List PlanEntry :=
  (planEntries (p.store.fieldsOf (.plan m))).filter (·.due period)

/-- R95: what the window finder reads at a valley of the motor for a period of length len, as the words stand. -/
def Part.finderOf (p : Part) (m : Slot) (len : Nat) : FinderInput :=
  let w := p.store.profileWord m
  let input := fun k i => analogInput (field (w k) i)
  { p := p.tb.p, len := len, dt := field (w 2) 0, st := field (w 3) 0, motorPriority := field (w 7) 1
    channels := ⟨input 4 0, input 4 1, input 4 2⟩, offsets := ⟨field (w 6) 0, field (w 6) 1, field (w 7) 0⟩
    voltages := ⟨input 5 0, input 5 1, input 5 2⟩, busChannel := analogInput (field (p.store.word 3).fields 0) }

/-- R49, R58: the plan of a SINE period with the applied duties, from the words as they stand. -/
def Part.planOf (p : Part) (m : Slot) (period : Byte) (duty : PerPhase Nat) : SinePlan :=
  let w := p.store.profileWord m
  let due := fun k => field (w 0) 1 != 0 && (p.dueEntries m period).any (·.kind == k)
  planSine
    { p := p.tb.p, dt := field (w 2) 0, pmin := field (w 2) 1, st := field (w 3) 0, shmax := field (w 3) 1
      dueA := due .linkA, dueB := due .linkB } duty

/-- R12, steps 1 and 2, and R11: the length of a period from the pending trim, P and the figure E. -/
def LengthBy (trim : Int) (p figE len : Nat) : Prop :=
  let c := max (-255) (min 255 trim)
  (len : Int) = p + (if c < 0 then max c ((figE : Int) + 1 - p) else c)

/-- R56, R74: a gate after a valley change that gives it a level: off with no turn-on pending; or on or waiting for its
turn-on, and still on where it was on. That a turn-on which still waits is given up by a level of off is the model's reading
(log 18: R56 and R66 do not name it). -/
def GateStage.Settled (before after : GateStage) (x : Phase) (g : Switch) (level : Prop) : Prop :=
  (¬level → (after.gateAt x g).on = false ∧ (after.gateAt x g).pend = none) ∧
  (level → (after.gateAt x g).on = true ∨ (after.gateAt x g).pend.isSome = true) ∧
  (level → (before.gateAt x g).on = true → (after.gateAt x g).on = true)

/-- R95, R96, R113: the requests of a period: one for each due entry, in order; the ones whose planned instant is the valley
have joined the waiting list. -/
def Part.requestsOf (p : Part) (m : Slot) (period : Byte) (len : Nat) (d : DriveWindows) : List Request :=
  (p.dueEntries m period).map fun e =>
    let r := e.request (p.finderOf m len) d
    { r with joined := r.window.any fun w => w.2.1 == 0 }

/-- A valley of a RUNNING motor has begun a period of the length on the schedule sc (R11, R12, R23, R40, R44, R45, R49, R50,
R55, R56, R72 to R74, R94 to R96, R113, R127, R128): p is the part at the valley, t the part after it. -/
structure Part.Opened (p t : Part) (m : Slot) (period : Byte) (len : Nat) (sc : Schedule) : Prop where
  carrier : (t.motor m).pace = { (p.motor m).pace with
    trim := (p.motor m).pace.trim - ((len : Int) - p.tb.p), carrier := some ⟨p.now, period, len⟩ }
  setq :
    let d := ((p.motor m).setq.decide period (p.motor m).setq.recs).2
    (t.motor m).setq = if p.dueEntries m period = [] then d else { d with overrunFlag := false, staleFlag := false }
  latest : (t.motor m).scheds.latest = some sc
  head :
    let d := (p.motor m).setq.decide period (p.motor m).setq.recs
    sc.period = period ∧ sc.valley = p.now ∧ sc.len = len ∧ sc.tag = d.2.applied.tag ∧ sc.outcome = d.1 ∧
      sc.overrun = d.2.overrunFlag ∧ sc.stale = d.2.staleFlag ∧
      sc.stream = BitVec.ofNat 8 (field (p.store.profileWord m 15) 1)
  finder : (t.motor m).finder =
    ⟨bumpBy (p.motor m).finder.placed sc.reqs.length,
      bumpBy (p.motor m).finder.unmeasurable (sc.reqs.filter fun r => r.window.isNone).length⟩
  list : ∀ w, w ∈ t.sampler.waiting ↔
    (w ∈ p.sampler.waiting ∧ ((∀ r, (p.motor m).seqr.run = some r → r.post = none) ∨ w.ofMotor m = false)) ∨
      ∃ r ∈ sc.reqs, ∃ earliest latest, r.window = some (earliest, 0, latest) ∧ w =
        { req := .motor m sc.id r.entry r.tag, holds := r.channels.length, planned := p.now, latest := later p.now latest
          motorPriority := r.motorPriority, priority := r.priority }
  frames : (∀ r, (p.motor m).seqr.run = some r → r.post = none) →
    if sc.reqs ≠ [] ∧ ∀ r ∈ sc.reqs, r.window = none then
      sc.handed = true ∧ t.up = p.up.join (.sample (sc.frame m))
    else sc.handed = false ∧ t.up = p.up
  /-- R49, R50, R52, R55, R56, R60, R61, R63: a SINE period -/
  sine : field (p.store.profileWord m 0) 0 = 0 → (p.motor m).seqr.run = none →
    let plan := p.planOf m period (t.motor m).setq.applied.duty
    LengthBy (p.motor m).pace.trim p.tb.p plan.figE len ∧
      sc.drive = .sine plan.pulse plan.a.ticks plan.b.ticks ∧ sc.edges = plan.edges ∧
      sc.reqs = p.requestsOf m period len
        (.sine plan (if field (p.store.profileWord m 0) 1 = 0 then (p.motor m).planner.prevPeriod else none)) ∧
      (t.motor m).planner =
        { last := some ⟨plan.pulse, plan.a.ticks, plan.b.ticks, len, plan.figE⟩
          prev := some (plan.pulse.map fun u => if u.w = 0 then .empty else if u.w = p.tb.p then .full else .between)
          clampZero := min ((p.motor m).planner.clampZero + plan.zeros) 65535
          clampFull := min ((p.motor m).planner.clampFull + plan.fulls) 65535
          shiftA := if plan.a.ticks = 0 then (p.motor m).planner.shiftA else bump (p.motor m).planner.shiftA
          shiftB := if plan.b.ticks = 0 then (p.motor m).planner.shiftB else bump (p.motor m).planner.shiftB
          refused := min ((p.motor m).planner.refused + (if plan.a.refused then 1 else 0) +
            (if plan.b.refused then 1 else 0)) 65535 } ∧
      (t.motor m).seqr = (p.motor m).seqr ∧
      ∀ x, (p.motor m).gates.Settled (t.motor m).gates x .low
            ((plan.pulse.get x).w = 0 ∨ ((plan.pulse.get x).w < p.tb.p ∧ 0 < (plan.pulse.get x).s)) ∧
        (p.motor m).gates.Settled (t.motor m).gates x .high ((plan.pulse.get x).w = p.tb.p)
  /-- R12, R72 to R74: a BLOCK period -/
  block : field (p.store.profileWord m 0) 0 ≠ 0 → ∃ r comms, (t.motor m).seqr.run = some r ∧
    let w := p.store.profileWord m
    let duty := match r.data with
      | .align _ => field (w 10) 0
      | .ramp _ _ _ | .closed _ _ _ _ _ => (t.motor m).setq.applied.duty.u
    LengthBy (p.motor m).pace.trim p.tb.p (p.tb.p / 2) len ∧
      r.dir = (if field (w 0) 2 = 0 then .forward else .reverse) ∧ r.post = none ∧ r.opening = [] ∧
      r.pulse = pulseOf (clampWidth (widthOf duty p.tb.p) p.tb.p (field (w 2) 1)) p.tb.p ∧
      sc.drive = .block r.step r.pulse comms false ∧
      sc.edges = (if 0 < r.pulse.w ∧ r.pulse.w < p.tb.p then
        [⟨r.pulse.s, (rolesOf r.step).pulsed, .high, true, false⟩, ⟨r.pulse.e, (rolesOf r.step).pulsed, .high, false, false⟩]
        else []) ∧
      sc.reqs = p.requestsOf m period len (.block r.step r.pulse) ∧ (t.motor m).planner = (p.motor m).planner ∧
      ∀ x, (p.motor m).gates.Settled (t.motor m).gates x .low (x = (rolesOf r.step).low) ∧
        (p.motor m).gates.Settled (t.motor m).gates x .high (x = (rolesOf r.step).pulsed ∧ r.pulse.w = p.tb.p)

/-- The motors in RUNNING or START_PENDING, which a SAFE_STOP request stops (R27). -/
def Part.drivenMotors (p : Part) : List Slot :=
  Ix3.all.filter fun m => (p.motor m).slot.state == .running || (p.motor m).slot.state == .startPending

/-- R27, R28: the motor has entered SAFE_STOP with the cause and holds its safe action. -/
structure Part.SafeStopped (p t : Part) (m : Slot) (cause : StopCause) : Prop where
  state : (t.motor m).slot.state = .safeStop
  stopCause : (t.motor m).slot.stopCause = some cause
  copies : (t.motor m).slot.copies = (p.motor m).slot.copies
  gates : (t.motor m).gates.Holds (((p.motor m).slot.copies.map (·.safe)).getD .allOff)
  stopped : p.Stopped t m

/-- R31, R143: a first trip event has moved the motor to TRIPPED: the record filled, the trip action held (ALL_OFF for
OC_PIN), the fault slot filled, the fault output asserted. -/
structure Part.TrippedBy (p t : Part) (m : Slot) (e : TripEvent) : Prop where
  state : (t.motor m).slot.state = .tripped
  stopCause : (t.motor m).slot.stopCause = none
  copies : (t.motor m).slot.copies = (p.motor m).slot.copies
  record : (t.motor m).slot.fault =
    some { cause := e.cause, instant := p.now, period := e.period, value := e.value, phase := e.phase, second := none }
  slot : t.up.slots.get m = (t.motor m).slot.fault
  gates : (t.motor m).gates.Holds
    (if e.cause = .ocPin then .allOff else ((p.motor m).slot.copies.map (·.trip)).getD .allOff)
  output : t.faultOut = true
  stopped : p.Stopped t m

/-- R55: the first of two edges may stand before the second in an edge list. -/
def Edge.Ordered (a b : Edge) : Prop :=
  a.carrierTime < b.carrierTime ∨ (a.carrierTime = b.carrierTime ∧
    (a.phase.toNat < b.phase.toNat ∨ (a.phase = b.phase ∧ (a.switch = .low ∨ b.switch = .high))))

/-- R88: what the gate output stage is to carry out from a commutation at carrier time ct on, which moves the step from
r.step to `next`, in a period with the edges `edges`. Of the phase that keeps the pulsed role the edges still to come are
entered again. That the HIGH gate of the phase that leaves the role is turned off also where its turn-on still waits is the
model's reading (log 19). -/
def Motor.commutationRequests (q : Motor) (p ct : Nat) (r : SeqRun) (next : Fin 6) (edges : List Edge) : List Edge :=
  let old := rolesOf r.step
  let new := rolesOf next
  let gate := q.gates.gateAt old.pulsed .high
  (if old.low = new.low then [] else [⟨ct, old.low, .low, false, false⟩, ⟨ct, new.low, .low, true, false⟩]) ++
  if old.pulsed = new.pulsed then edges.filter fun e => !e.made && e.phase == new.pulsed
  else
    (if gate.on = true ∨ gate.pend.isSome = true then [⟨ct, old.pulsed, .high, false, false⟩] else []) ++
    (if r.pulse.w = 0 then []
      else if r.pulse.w < p then
        (if max ct r.pulse.s < r.pulse.e then [⟨max ct r.pulse.s, new.pulsed, .high, true, false⟩] else []) ++
        (if ct < r.pulse.e then [⟨r.pulse.e, new.pulsed, .high, false, false⟩] else [])
      else if r.pulse.w = p then [⟨ct, new.pulsed, .high, true, false⟩] else [])

/-- R88, R57: the period's schedule and the gates after a commutation in the middle of the period: the edges made stay, the
requests of R88 join them in the order of R55, and the ones due now (the last edges at the end of a period that a trim has
shortened, R13) are carried out. -/
structure Motor.EdgesRewritten (q q' : Motor) (p : Nat) (now : Tick) (r : SeqRun) (c : Carrier) (sc sc' : Schedule) : Prop where
  ordered : sc'.edges.Pairwise Edge.Ordered
  edges :
    let ct := ticksFrom now c.valley
    sc'.edges.Perm (sc.edges.filter (·.made) ++
      (q.commutationRequests p ct r (nextStep r.dir r.step) sc.edges).map fun e =>
        { e with made := decide (min e.carrierTime (c.len - 1) = ct) })
  gates :
    let ct := ticksFrom now c.valley
    let due := fun (e : Edge) =>
      e ∈ q.commutationRequests p ct r (nextStep r.dir r.step) sc.edges ∧ min e.carrierTime (c.len - 1) = ct
    (∀ x g, (∀ e, due e → ¬(e.phase = x ∧ e.switch = g)) → q'.gates.gateAt x g = q.gates.gateAt x g) ∧
    (∀ e, due e → e.on = false → (∀ f, due f → f.phase = e.phase → f.switch = e.switch → f = e ∨ f.carrierTime < e.carrierTime) →
      (q'.gates.gateAt e.phase e.switch).on = false ∧ (q'.gates.gateAt e.phase e.switch).pend = none) ∧
    (∀ e, due e → e.on = true → (∀ f, due f → f.phase = e.phase → f = e) →
      q'.gates.gateAt e.phase e.switch =
        if (q.gates.gateAt e.phase e.switch).on then q.gates.gateAt e.phase e.switch
        else if (q.gates.gateAt e.phase e.switch.other).on = false ∧
            (q.gates.gateAt e.phase e.switch.other).gapOver now q.dt = true then
          { q.gates.gateAt e.phase e.switch with on := true, pend := none }
        else { q.gates.gateAt e.phase e.switch with pend := some ⟨now, true⟩ })

/-- R87 to R89, R117: motor m after a commutation of a kind at this instant; p is the part before, t the part after, r the
motor's sequencer before. That a HIGH turn-on which still waits is given up with the pulsed role is the model's reading
(log 19: R88 speaks of a HIGH gate that is on). -/
structure Part.Commutated (p t : Part) (m : Slot) (r : SeqRun) (kind : CommKind) (late : Bool) : Prop where
  step : (t.motor m).seqr.run.map (·.step) = some (nextStep r.dir r.step)
  search : (t.motor m).seqr.run.map (·.search) = some (some { ref := p.now, searching := true, prev := none })
  post : (t.motor m).seqr.run.map (·.post) = some none
  pulse : (t.motor m).seqr.run.map (·.pulse) = some r.pulse
  low : (rolesOf r.step).low ≠ (rolesOf (nextStep r.dir r.step)).low →
    let gate := fun x => (t.motor m).gates.gateAt x .low
    (gate (rolesOf r.step).low).on = false ∧ (gate (rolesOf r.step).low).pend = none ∧
      ((gate (rolesOf (nextStep r.dir r.step)).low).on = true ∨
        (gate (rolesOf (nextStep r.dir r.step)).low).pend.isSome = true)
  pulsed : (rolesOf r.step).pulsed ≠ (rolesOf (nextStep r.dir r.step)).pulsed →
    let gate := (t.motor m).gates.gateAt (rolesOf r.step).pulsed .high
    gate.on = false ∧ gate.pend = none
  requests : (p.motor m).scheds.Resolved (t.motor m).scheds Request.givenUp
  missed : (t.motor m).samp = { (p.motor m).samp with
    missedState := min ((p.motor m).samp.missedState + (p.motor m).unfrozenCount) 65535 }
  list : t.sampler.waiting = p.sampler.waiting.filter fun w => !w.ofMotor m
  /-- R88, R89: in the middle of a period the edges are rewritten and the entry is recorded -/
  middle : ∀ c sc, (p.motor m).pace.carrier = some c → c.atNext p.now = false → (p.motor m).scheds.latest = some sc →
    (t.motor m).seqr.run.map (·.opening) = some r.opening ∧
    ∃ sc', (t.motor m).scheds.latest = some sc' ∧
      (p.motor m).EdgesRewritten (t.motor m) p.tb.p p.now r c sc sc' ∧
      ∀ step u comms crossing, sc.drive = .block step u comms crossing → sc'.drive = .block step u
        (comms ++ [⟨ticksFrom p.now c.valley, nextStep r.dir r.step, kind, late, false⟩]) crossing
  /-- R89: at the instant of the next valley the entry waits for the period that the valley opens -/
  atValley : ∀ c, (p.motor m).pace.carrier = some c → c.atNext p.now = true →
    (t.motor m).seqr.run.map (·.opening) = some (r.opening ++ [⟨0, nextStep r.dir r.step, kind, late, false⟩]) ∧
    (∀ sc, (p.motor m).scheds.latest = some sc → ∃ sc', (t.motor m).scheds.latest = some sc' ∧ sc'.edges = sc.edges ∧
      sc'.drive = sc.drive) ∧
    (t.motor m).gates.gateAt (rolesOf (nextStep r.dir r.step)).pulsed .high =
      (p.motor m).gates.gateAt (rolesOf (nextStep r.dir r.step)).pulsed .high

/-- R89: a commutation at this instant is not postponed: the period in force holds fewer than two, or this is the instant
of the next valley; and the instant lies in the period. -/
def Motor.TakesCommutation (q : Motor) (now : Tick) : Prop :=
  ∃ c, q.pace.carrier = some c ∧
    (c.atNext now = true ∨ (ticksFrom now c.valley < c.len ∧ ∃ sc, q.scheds.latest = some sc ∧ sc.comms.length < 2))

/-- A waiting list with one request more, in the place that R114 gives it. -/
def JoinedAt (w : WaitItem) (before after : List WaitItem) : Prop :=
  ∃ front back, before = front ++ back ∧ after = front ++ w :: back ∧ (∀ x ∈ front, w.before x = false) ∧
    ∀ x, back.head? = some x → w.before x = true

/-- R130, R131, R136: the frames join the general queue in this order, and a transfer in progress ends, its upstream frame
consumed, in any place among them. -/
def Upstream.JoinedBy (u v : Upstream) (frames : List FrameBody) : Prop :=
  (u.transfer = .absent → v = frames.foldl Upstream.join u) ∧
  (u.transfer ≠ .absent → ∃ n, v = (frames.drop n).foldl Upstream.join ((frames.take n).foldl Upstream.join u).consume)

/-- R157, R158: words are read, each once, and no motor trips by them: each valid word of them found uncorrectable loses its
valid mark, and its TABLE_INVALID notice joins the general queue, the notices in any order, then the frames `after`; no field
and no other mark changes. p is the part before, t the part after. -/
structure Part.FoundBroken (p t : Part) (reads : List (Fin 82)) (after : List FrameBody) : Prop where
  fields : ∀ pos, (t.store.word pos).fields = (p.store.word pos).fields
  marks : ∀ pos, (t.store.word pos).valid = true ↔
    (p.store.word pos).valid = true ∧ ¬(pos ∈ reads ∧ (p.store.word pos).broken pos = true)
  counts :
    let found := reads.filter fun pos => (p.store.word pos).valid && (p.store.word pos).broken pos
    t.store.uncorrectable =
      if found = [] then p.store.uncorrectable else min (p.store.uncorrectable + found.length) 255
  frames : ∃ l : List FrameBody,
    l.Perm ((reads.filter fun pos => (p.store.word pos).valid && (p.store.word pos).broken pos).map fun pos =>
      .notice (.tableInvalid (regionIndex pos).1 (regionIndex pos).2)) ∧
    p.up.JoinedBy t.up (l ++ after)

/-- R28, R117, R120: the sample frames that a motor's leaving of RUNNING or START_PENDING completes: those of its schedules
with requests and with none of them frozen. -/
def Motor.lastFrames (q : Motor) (m : Slot) : List FrameBody :=
  ((q.scheds.older ++ q.scheds.latest.toList).filter fun sc =>
    !sc.handed && !sc.reqs.isEmpty && sc.reqs.all fun r => r.status != .frozen).map fun sc =>
      .sample ({ sc with reqs := sc.reqs.map Request.left }.frame m)

/-- The motor's period schedules hold nothing that could still become a sample frame. -/
def Motor.NothingInFlight (q : Motor) : Prop :=
  ∀ sc ∈ q.scheds.latest.toList ++ q.scheds.older, sc.handed = true ∨ sc.reqs = []

end Sys2Proof.Machine
end

