-- ==== Sys2Proof/WellFormed.lean ====
section
/-! DEFINITION. Which commands are well formed: what the types of Syntax.lean do not say already. -/

namespace Sys2Proof

/-- The checks: WRITE_RECORD carries its 24 parameter bytes (R169); the request code of a
BAD_REQUEST is none of the six, 1 to 6 (R167, R173). -/
def Instr.wellFormed : Instr → Bool
  | .writeRecord _ _ _ _ _ _ params => params.length == 24
  | .badRequest _ (.request code) => code == 0#8 || decide (6 < code.toNat)
  | .badRequest _ (.action _) => true
  | .powerOn _ _ | .enFall | .enableReset _ | .masterCycleEnd | .syncEdge | .firstValley _ | .valley _ | .edge _ => true
  | .pendingTurnOn _ _ _ | .rampCommutation _ | .detectedCommutation _ | .searchTimeout _ => true
  | .waitingListJoin _ _ | .holdEligible _ | .freeze | .deadline _ | .conversionComplete _ | .busRequestPlace => true
  | .ocPinFall _ | .ocPinRise _ | .transferStart | .idleFrame | .setpoint _ _ _ _ _ _ _ | .badFrame _ => true
  | .abortedTransfer | .readRecord _ _ _ _ | .arm _ _ | .disarm _ _ | .start _ _ | .park _ _ | .halt _ _ => true
  | .release _ _ | .ackFault _ _ | .readStatus _ _ _ | .clearCounts _ _ | .resetPart _ => true

end Sys2Proof
end

