-- ==== Sys2Proof/Certificates/Slice0/Obligations.lean ====
section
/-! DEFINITION. The statements for the provers. Each says which rules of spec/ it formalises; `log n` names a row of the
assumption log, where a clause is the model's own. -/

open Sys2Proof Sys2Proof.Machine

/-! ## The machine -/

/-- A step takes the command at the front of the queue and runs it on the rest (95: each row is whole and indivisible). -/
def Obligations.StepRunsTheQueuedCommand : Prop :=
  ∀ (c : Instr) (s : State), step { s with pending := c :: s.pending } = exec c s

/-- The model's own (log 1): a timed command whose event is the next to come is the passing of time up to its instant and
the same command there. -/
def Obligations.TimedCommandComesAtItsInstant : Prop :=
  ∀ (c : Instr) (s : State) (d : Nat), s.part.en = true → s.part.delay c = some d → s.part.noneBefore d = true →
    exec c s = exec c { s with part := s.part.upTo d }

/-- R32, R123, R162: while EN is low no command has an effect but POWER_ON and ENABLE_RESET; a transfer is at most marked
as ignored, or ends. -/
def Obligations.EnLowTakesNothing : Prop :=
  ∀ (c : Instr) (s : State), s.part.en = false → s.part.HeldOff → (∀ e pins, c ≠ .powerOn e pins) →
    (∀ pins, c ≠ .enableReset pins) →
    ∃ tr, exec c s = .next { s with part := { s.part with up := { s.part.up with transfer := tr } } } ∧
      (tr = .absent ∨ tr = .ignored)

/-- The values after power-on that the spec states (R15, R34, R35, R47, R70, R91, R109, R124, R139, R151, R161, R172), with
no event taken yet and the holds free since the instant of the reset; that POWER_ON with EN and the comparator inputs HIGH
leads there but for the model's own counters (log 2); and that the state there meets every invariant below. -/
def Obligations.ResetStateIsTheSpecs : Prop :=
  let p := State.reset.part
  p.en = true ∧
  p.tb = { tick := 0#32, p := 16000, pos := 0, len := 16000, endDue := false, capture := none, tally := 0, run := 0,
           lastErr := 0, lastAdj := 0, slips := 0, missing := 0, extras := 0 } ∧
  (∀ m, (p.motor m).slot = ⟨.off, false, none, none, none, none⟩ ∧ (p.motor m).pace = ⟨0, 0, none⟩ ∧
    (p.motor m).setq = ⟨[], ⟨0#8, ⟨0, 0, 0⟩⟩, 0, false, false, 0, 0, 0, 0, 0⟩ ∧
    (p.motor m).planner = ⟨none, none, 0, 0, 0, 0, 0⟩ ∧
    (∀ x g, (p.motor m).gates.gateAt x g = ⟨false, 0#32, false, none⟩) ∧ (p.motor m).gates.delays = 0 ∧
    (p.motor m).seqr = ⟨none, 0, 0, 0, 0, 0, 0⟩ ∧ (p.motor m).finder = ⟨0, 0⟩ ∧ (p.motor m).scheds = ⟨none, []⟩ ∧
    (p.motor m).samp = ⟨0, 0, 0, 0⟩ ∧ (p.motor m).prot = ⟨true, 0, 0, 0, 0, 0, 0⟩) ∧
  (∀ h, p.sampler.holds.get h = .free 0#32 false) ∧
  p.sampler = { holds := p.sampler.holds, conv := none, fifo := [], waiting := [], busReq := .absent, busPlan := .unread,
                lastCode := none, conversions := 0, rails := 0, busFrozen := 0, busMissed := 0, highWater := 0 } ∧
  p.up = { queue := [], nextId := 0, slots := ⟨none, none, none⟩, transfer := .absent, dropped := false, built := 0, sent := 0,
           lost := 0, builtBy := ⟨0, 0, 0⟩, displaced := 0, refused := 0, replyLost := 0, noticeLost := 0, faultSent := 0,
           replySent := 0, noticeSent := 0, idleSent := 0, unconsumed := 0 } ∧
  p.bus = ⟨true, false, 0, 0⟩ ∧
  ((∀ pos, (p.store.word pos).valid = false) ∧ p.store.corrected = 0 ∧ p.store.uncorrectable = 0 ∧
    p.store.lastCorrected = none ∧ p.store.lastUncorrectable = none ∧ p.store.scrubPos = 0 ∧ p.store.passes = 0) ∧
  p.link = { errors := 0, recovery := 0, unmatched := none, staging := none, good := 0, badCheck := 0, aborted := 0,
             unknownKind := 0, routed := 0, unmatchedCount := 0, droppedBy := 0, executed := 0, ignored := 0,
             degradedEntries := 0, lostEntries := 0 } ∧
  p.cause = ⟨true, false, false⟩ ∧ p.faultOut = false ∧ p.outbox = [] ∧ State.reset.pending = [] ∧
  (∀ s : State, s.part.up.transfer = .absent → exec (.powerOn true ⟨true, true, true⟩) s =
    .next { s with part := { p with nextSched := s.part.nextSched, free := s.part.free } }) ∧
  p.Quiet ∧ p.NoShootThrough ∧ p.HeldOff ∧ p.Fits ∧ p.up.Conserved ∧ p.sampler.Matched ∧ p.Bounded ∧ p.PeriodInRange

/-! ## Frames as bytes -/

/-- R162, R163, R173: reading the frame that is written for a well-formed link command gives the command back, from its 36
bytes and from its 288 bits, whatever bits come after them; a transfer of fewer bits is aborted. -/
def Obligations.DecodeOfEncodedFrame : Prop :=
  (∀ (i : Instr) (f : List Byte), i.wellFormed = true → encodeFrame i = some f → decodeFrame f = i ∧ f.length = 36 ∧
    ∀ more : List Bool, decodeTransfer ((f.map byteBits).flatten ++ more) = i) ∧
  ∀ bits : List Bool, bits.length < 288 → decodeTransfer bits = .abortedTransfer

/-! ## What every step keeps -/

/-- R65: no step turns both gates of a phase on. -/
def Obligations.NoShootThroughKept : Prop :=
  ∀ s t : State, s.part.NoShootThrough → step s = .next t → t.part.NoShootThrough

/-- R65, R18: a gate that a step turns on has its partner off, and off for the motor's dead time or longer. -/
def Obligations.DeadGapBeforeEveryTurnOn : Prop :=
  ∀ (s t : State) (m : Slot) (x : Phase) (g : Switch), step s = .next t →
    ((s.part.motor m).gates.gateAt x g).on = false → ((t.part.motor m).gates.gateAt x g).on = true →
    ((t.part.motor m).gates.gateAt x g.other).on = false ∧
      ((t.part.motor m).gates.gateAt x g.other).gapOver t.part.now (t.part.motor m).dt = true

/-- R16, R32: a motor in OFF, READY or LOCKED_OUT, or in START_PENDING from READY, and every motor while EN is low, keeps
all its gates off. -/
def Obligations.UndrivenGatesStayOff : Prop :=
  ∀ s t : State, s.part.HeldOff → step s = .next t → t.part.HeldOff

/-- The presence columns of the state tables of chapters 1, 2, 5 and 9, R9, R46 and the last paragraph of R144: what a
slot holds fits its motor state. -/
def Obligations.SlotFieldsFitTheMotorState : Prop :=
  ∀ s t : State, s.part.Fits → step s = .next t → t.part.Fits

/-- R138: sample frames are conserved. -/
def Obligations.SampleFramesConserved : Prop :=
  ∀ s t : State, s.part.up.Conserved → step s = .next t → t.part.up.Conserved

/-- R111, R112: the conversion FIFO holds exactly the values of the HELD holds. -/
def Obligations.FifoMatchesHolds : Prop :=
  ∀ s t : State, s.part.sampler.Matched → step s = .next t → t.part.sampler.Matched

/-- R39, R130, R164, R165: the queues and the link's score stay within their bounds. -/
def Obligations.QueuesAndScoreBounded : Prop :=
  ∀ s t : State, s.part.Bounded → step s = .next t → t.part.Bounded

/-- R120, R127: between commands no complete schedule and no notice waits to join the upstream queue. -/
def Obligations.CompleteSchedulesAreHandedOn : Prop :=
  ∀ s t : State, s.part.Quiet → step s = .next t → t.part.Quiet

/-- R2, R153: P in force stays an even number within 2000 to 16000. -/
def Obligations.PeriodStaysInRange : Prop :=
  ∀ s t : State, s.part.PeriodInRange → step s = .next t → t.part.PeriodInRange

/-! ## Computations -/

/-- R51, R52 and R53: the width of a duty, the clamp against PMIN row by row, and the pulse, with the bounds that R53 draws
from the clamp and the store's PMIN rule. Where 2·PMIN exceeds P a width can lie in two rows of R52; that the upper row then
counts is the model's reading (log 17). -/
def Obligations.PulsesAreCentred : Prop :=
  ∀ (duty p pmin dt : Nat), p % 2 = 0 → duty ≤ 32768 → 2 * dt + 2 ≤ pmin →
    let raw := widthOf duty p
    let w := clampWidth raw p pmin
    let u := pulseOf w p
    raw = (duty * p + 16384) / 32768 ∧ raw ≤ p ∧ (duty = 0 → raw = 0) ∧ (duty = 32768 → raw = p) ∧
      (raw = 0 → w = 0) ∧ (0 < raw → raw < pmin → w = 0) ∧ (pmin ≤ raw → raw + pmin ≤ p → w = raw) ∧
      (pmin ≤ raw → p < raw + pmin → raw < p → w = p) ∧ (raw = p → pmin ≤ p → w = p) ∧
      (w = 0 ∨ w = p ∨ (pmin ≤ w ∧ w ≤ p - pmin)) ∧
      u.w = w ∧ u.s = (p - w) / 2 ∧ u.e = u.s + w ∧ (w = 0 → u.s = p / 2 ∧ u.e = p / 2) ∧ (w = p → u.s = 0 ∧ u.e = p) ∧
      (w % 2 = 0 → u.s + u.e = p) ∧ (w % 2 = 1 → u.s + u.e + 1 = p) ∧
      (0 < w → w < p → dt + 1 ≤ u.s ∧ u.e + dt ≤ p - 1)

/-- R49, R52 to R55 and R58 to R63: what the edge planner makes of three duties: the order of the phases, the shifts A and B
applied or refused, the pulses that are moved, the windows, the edge list, the figure E and the clamp counts. With the last
sentence of R57 (and R12): every edge lies at or before E, which lies below P, and a negative trim leaves the period longer
than E. -/
def Obligations.PlannedEdgesEndBeforeThePeriod : Prop :=
  ∀ (i : PlanInput) (duty : PerPhase Nat) (trim : Int), i.p % 2 = 0 → 2000 ≤ i.p → 2 * i.dt + 2 ≤ i.pmin →
    (∀ x, duty.get x ≤ 32768) →
    let plan := planSine i duty
    let raw := fun x => widthOf (duty.get x) i.p
    let w := fun x => clampWidth (raw x) i.p i.pmin
    let placed := fun x => pulseOf (w x) i.p
    let isPartial := fun (u : Pulse) => 0 < u.w ∧ u.w < i.p
    -- R58: max, mid and min
    let larger := fun (x y : Phase) => w y < w x ∨ (w y = w x ∧ x.toNat < y.toNat)
    (∀ mx mid mn, larger mx mid → larger mid mn →
      plan.mx = mx ∧ plan.mn = mn ∧
      -- R59, R60, R61: the shifts, from the pulses as R53 placed them
      let g : Int := i.dt + i.st + 24 + 1
      let needA : Int := max 0 (g - ((placed mid).s - (placed mx).s))
      let needB : Int := max 0 (g - ((placed mn).s - (placed mid).s))
      let existsA := i.dueA = true ∧ isPartial (placed mx)
      let existsB := i.dueB = true ∧ isPartial (placed mid) ∧ 0 < w mx
      let fitsA := 0 < i.shmax ∧ needA ≤ i.shmax ∧ 0 ≤ (placed mx).s - needA
      let fitsB := 0 < i.shmax ∧ needB ≤ i.shmax ∧ (placed mn).e + needB + i.dt ≤ (i.p : Int) - 2
      ((plan.a.ticks : Int) = if existsA ∧ 0 < w mid ∧ fitsA then needA else 0) ∧
      (plan.a.refused = true ↔ existsA ∧ 0 < w mid ∧ 0 < needA ∧ ¬fitsA) ∧
      ((plan.b.ticks : Int) = if existsB ∧ 0 < w mn ∧ fitsB then needB else 0) ∧
      (plan.b.refused = true ↔ existsB ∧ 0 < w mn ∧ 0 < needB ∧ ¬fitsB) ∧
      plan.pulse.get mx = ⟨w mx, (placed mx).s - plan.a.ticks, (placed mx).e - plan.a.ticks⟩ ∧
      plan.pulse.get mid = placed mid ∧
      plan.pulse.get mn = ⟨w mn, (placed mn).s + plan.b.ticks, (placed mn).e + plan.b.ticks⟩ ∧
      -- R59, R62: the windows, from the pulses as they then stand
      let transition := fun (c : Nat) => ∃ x, isPartial (plan.pulse.get x) ∧ (c = (plan.pulse.get x).s ∨ c = (plan.pulse.get x).e)
      let opens := fun (found : Option (Nat × Nat)) (opening : Nat) => ∀ c1, transition c1 → opening < c1 →
        (∀ c, transition c → opening < c → c1 ≤ c) →
        found = if opening + i.dt + i.st + 24 ≤ c1 - 1 then some (opening + i.dt + i.st + 24, c1 - 1) else none
      (existsA → plan.a.refused = false → opens plan.winA (plan.pulse.get mx).s) ∧
      (¬existsA ∨ plan.a.refused = true → plan.winA = none) ∧
      (existsB → plan.b.refused = false → opens plan.winB (plan.pulse.get mid).s) ∧
      (¬existsB ∨ plan.b.refused = true → plan.winB = none)) ∧
    -- R54, R55
    (∀ e, e ∈ plan.edges ↔ ∃ x, isPartial (plan.pulse.get x) ∧
      let u := plan.pulse.get x
      (e = ⟨u.s, x, .low, false, false⟩ ∨ e = ⟨u.s + i.dt, x, .high, true, false⟩ ∨ e = ⟨u.e, x, .high, false, false⟩ ∨
        e = ⟨u.e + i.dt, x, .low, true, false⟩)) ∧
    plan.edges.Nodup ∧ plan.edges.Pairwise Edge.Ordered ∧ plan.edges.length ≤ 12 ∧
    -- R63
    (∀ x, isPartial (plan.pulse.get x) → (plan.pulse.get x).e + i.dt ≤ plan.figE) ∧
    ((∃ x, isPartial (plan.pulse.get x) ∧ plan.figE = (plan.pulse.get x).e + i.dt) ∨
      ((∀ x, ¬isPartial (plan.pulse.get x)) ∧ plan.figE = i.p / 2)) ∧
    plan.figE ≤ i.p - 1 ∧
    (∀ e ∈ plan.edges, e.carrierTime ≤ plan.figE ∧ (e.carrierTime : Int) < (i.p : Int) + appliedTrim trim i.p plan.figE) ∧
    -- R52
    plan.zeros = ([Phase.u, .v, .w].filter fun x => decide (raw x ≠ 0 ∧ w x = 0)).length ∧
    plan.fulls = ([Phase.u, .v, .w].filter fun x => decide (raw x ≠ i.p ∧ w x = i.p)).length

/-- R82: the interpolated crossing instant, between the two freeze instants. R104 and R105: the values of a request from its
codes; the three of a leg pair stand in phase order and sum to zero. -/
def Obligations.CrossingInstantsAndRequestValues : Prop :=
  (∀ (prev : PrevSample) (x : Int) (now : Tick), prev.x ≠ 0 →
    ticksFrom (interpolate prev x now) prev.instant =
        ticksFrom now prev.instant * prev.x.natAbs / (prev.x.natAbs + x.natAbs) ∧
      ticksFrom (interpolate prev x now) prev.instant ≤ ticksFrom now prev.instant ∧
      (x = 0 → interpolate prev x now = now)) ∧
  (∀ (r : Request) (a b c : Code) (offsets : List Nat),
    let rail := fun (k : Code) => decide (k.toNat = 0 ∨ k.toNat = 4095)
    let current := fun (k : Code) (i : Nat) => (⟨(k.toNat : Int) - r.offsets.getD i 0, rail k, false⟩ : Reading)
    let plain := fun (k : Code) => (⟨(k.toNat : Int), rail k, false⟩ : Reading)
    (r.kind = .linkA → r.form [a] = [current a 0]) ∧
    (r.kind = .linkB → r.form [a] = [⟨-(current a 0).value, rail a, false⟩]) ∧
    (r.kind = .blockOn → r.form [a, b, c] = [current a 0, plain b, plain c]) ∧
    (r.kind = .auxValley ∨ r.kind = .auxPeak → r.form [a] = [plain a] ∧ r.form [a, b] = [plain a, plain b]) ∧
    (r.kind = .legPair → ∀ x y z : Phase, r.legs = [x, y] → x.toNat < y.toNat → z ≠ x → z ≠ y →
      let out := r.form [a, b]
      out.length = 3 ∧ out[x.toNat]? = some (current a 0) ∧ out[y.toNat]? = some (current b 1) ∧
        out[z.toNat]? = some ⟨-((current a 0).value + (current b 1).value), rail a || rail b, true⟩ ∧
        (out.map (·.value)).sum = 0 ∧
        (r.offsets = offsets → (∀ o ∈ offsets, o ≤ 4095) →
          -8190 ≤ -((current a 0).value + (current b 1).value) ∧ -((current a 0).value + (current b 1).value) ≤ 8190)))

/-! ## Resets and the enable line -/

/-- R35: the reset-cause record after each reset and after CLEAR_COUNTS DEVICE, and its place in READ_STATUS DEVICE. -/
def Obligations.ResetCausesRecorded : Prop :=
  (∀ (s : State) e pins, ∃ t, exec (.powerOn e pins) s = .next t ∧ t.part.cause = ⟨true, false, false⟩) ∧
  (∀ (s : State) pins, ∃ t, exec (.enableReset pins) s = .next t ∧ t.part.cause = ⟨s.part.cause.power, true, false⟩) ∧
  (∀ (s : State) tag, s.part.Serving 1 → s.part.link.errors < 128 →
    ∃ t, exec (.resetPart tag) s = .next t ∧ t.part.cause = ⟨s.part.cause.power, s.part.cause.enable, true⟩) ∧
  (∀ (s : State) tag, s.part.Serving 1 →
    ∃ t, exec (.clearCounts tag 7#4) s = .next t ∧ t.part.cause = ⟨false, false, false⟩) ∧
  (∀ (s : State) tag, s.part.Serving 1 → ∃ data,
    exec (.readStatus tag 7#4 0#8) s = .next { s with part := s.part.replied ⟨tag, 4#8, .ok, data⟩ } ∧
    (data.drop 2).take 3 = [byte (b2n s.part.cause.power), byte (b2n s.part.cause.enable), byte (b2n s.part.cause.soft)])

/-- POWER_ON and ENABLE_RESET (R15, R33, R47, R70, R91, R109, R124, R139, R140, R151, R161, R172): every motor at its
values after a reset with the comparator level of its input, every queue empty, every count of the upstream side 0; the store
lost at power-on and kept by the enable reset, which takes P from it. A transfer in progress is ended without consumption
(R139); that its frame end, when it comes, is then ignored is the model's own (log 21). -/
def Obligations.PowerOnAndEnableResetTheBlocks : Prop :=
  let emptied := fun (s t : State) => t.part.up =
    { queue := [], nextId := t.part.up.nextId, slots := ⟨none, none, none⟩
      transfer := if s.part.up.transfer = .absent then .absent else .ignored
      dropped := false, built := 0, sent := 0, lost := 0, builtBy := ⟨0, 0, 0⟩, displaced := 0, refused := 0, replyLost := 0
      noticeLost := 0, faultSent := 0, replySent := 0, noticeSent := 0, idleSent := 0, unconsumed := 0 }
  (∀ (s : State) (e : Bool) (pins : Triple Bool), ∃ t, exec (.powerOn e pins) s = .next t ∧ t.pending = s.pending ∧
    t.part.en = e ∧ t.part.tb = .initial 16000 ∧ (∀ m, t.part.motor m = .initial (pins.get m)) ∧
    t.part.sampler = .initial ∧ t.part.bus = .initial ∧ t.part.link = .initial ∧ t.part.store = .initial ∧
    emptied s t ∧ t.part.outbox = [] ∧ t.part.faultOut = false) ∧
  (∀ (s : State) (pins : Triple Bool), (s.part.store.word 0).broken 0 = false → ∃ t, exec (.enableReset pins) s = .next t ∧
    t.pending = s.pending ∧ t.part.en = true ∧
    t.part.tb = .initial (if s.part.store.recordValid .config then field (s.part.store.word 0).fields 0 else 16000) ∧
    (∀ m, t.part.motor m = .initial (pins.get m)) ∧ t.part.sampler = .initial ∧ t.part.bus = .initial ∧
    t.part.link = .initial ∧
    (∀ pos, (t.part.store.word pos).fields = (s.part.store.word pos).fields ∧
      (t.part.store.word pos).valid = (s.part.store.word pos).valid) ∧
    t.part.store.scrubPos = 0 ∧ t.part.store.passes = 0 ∧ t.part.store.uncorrectable = s.part.store.uncorrectable ∧
    emptied s t ∧ t.part.outbox = [] ∧ t.part.faultOut = false)

/-- EN_FALL (R32, R15): all gates off with no turn-on pending, the timebase held at its reset values, P as the valid marks
have it (log 20); the slots, queues, sampling unit, store, link and supervisor keep what they held. -/
def Obligations.EnFallTurnsEveryGateOff : Prop :=
  ∀ s : State, s.part.en = true → ∃ t, exec .enFall s = .next t ∧ t.pending = s.pending ∧ t.part.en = false ∧
    (∀ m, (t.part.motor m).gates.AllOff ∧ (∀ x g, ((t.part.motor m).gates.gateAt x g).lastOff = s.part.now)) ∧
    (∀ m, (t.part.motor m).slot = (s.part.motor m).slot ∧ (t.part.motor m).setq = (s.part.motor m).setq ∧
      (t.part.motor m).planner = (s.part.motor m).planner ∧ (t.part.motor m).seqr = (s.part.motor m).seqr ∧
      (t.part.motor m).scheds = (s.part.motor m).scheds ∧ (t.part.motor m).prot = (s.part.motor m).prot ∧
      (t.part.motor m).pace.trim = 0 ∧ (t.part.motor m).pace.trimLoss = 0) ∧
    t.part.tb = .initial (if s.part.store.recordValid .config then field (s.part.store.word 0).fields 0 else 16000) ∧
    t.part.sampler = s.part.sampler ∧ t.part.bus = s.part.bus ∧ t.part.store = s.part.store ∧ t.part.link = s.part.link ∧
    t.part.cause = s.part.cause ∧ t.part.up.queue = s.part.up.queue ∧ t.part.up.slots = s.part.up.slots ∧
    t.part.faultOut = s.part.faultOut

/-- RESET_PART (R34, R139, R172; R15, R151, R161): every motor OFF but one in LOCKED_OUT, which keeps its record; the
comparator levels and the store's fields and valid marks unchanged, and P taken from the store; its reply is the one frame
queued. -/
def Obligations.ResetPartKeepsLockout : Prop :=
  ∀ (s : State) (tag : Byte), s.part.Serving 1 → s.part.link.errors < 128 → (s.part.store.word 0).broken 0 = false →
    ∃ t, exec (.resetPart tag) s = .next t ∧ t.pending = s.pending ∧ t.part.en = true ∧
      (∀ m, (s.part.motor m).slot.state ≠ .lockedOut → t.part.motor m = .initial (s.part.motor m).prot.pinHigh) ∧
      (∀ m, (s.part.motor m).slot.state = .lockedOut →
        (t.part.motor m).slot = { SlotBlock.initial with state := .lockedOut, fault := (s.part.motor m).slot.fault } ∧
        (t.part.motor m).gates = .initial ∧ (t.part.motor m).setq = .initial ∧
        (t.part.motor m).prot = .initial (s.part.motor m).prot.pinHigh) ∧
      t.part.tb = .initial (if s.part.store.recordValid .config then field (s.part.store.word 0).fields 0 else 16000) ∧
      t.part.sampler = .initial ∧ t.part.bus = .initial ∧ t.part.link = .initial ∧
      (∀ pos, (t.part.store.word pos).fields = (s.part.store.word pos).fields ∧
        (t.part.store.word pos).valid = (s.part.store.word pos).valid) ∧
      t.part.store.scrubPos = 0 ∧ t.part.store.passes = 0 ∧ t.part.store.uncorrectable = s.part.store.uncorrectable ∧
      t.part.up.queue.map (·.body) = [.reply ⟨tag, 6#8, .ok, []⟩] ∧ (∀ m, t.part.up.slots.get m = none) ∧
      t.part.up.transfer = .absent ∧ t.part.up.built = 0 ∧ t.part.up.dropped = false

/-! ## Timebase -/

/-- MASTER_CYCLE_END. In every state: a new cycle of length P plus the last adjustment, the scrubber one word on, a bus
request whose position was not reached counted as missed (R2, R4, R121, R159). Where CONFIG can be read, sync is enabled and
the cycle holds a capture: the evaluation of R5 and R7, the pending trims of R8, the SYNC_SLIP notice, and nothing else of
the motors. Where no capture is evaluated (R6): an adjustment of 0, and the missing count raised only in a cycle that had
its capture missing. -/
def Obligations.MasterCycleEndTurnsTheCycle : Prop :=
  (∀ s : State, s.part.en = true → s.part.tb.endDue = true → ∃ t, exec .masterCycleEnd s = .next t ∧
    t.pending = s.pending ∧ t.part.tb.tick = s.part.tb.tick ∧ t.part.tb.p = s.part.tb.p ∧ t.part.tb.pos = 0 ∧
    t.part.tb.endDue = false ∧ t.part.tb.capture = none ∧ t.part.tb.tally = 0 ∧
    t.part.tb.len = ((s.part.tb.p : Int) + t.part.tb.lastAdj).toNat ∧
    t.part.store.scrubPos = s.part.store.scrubPos + 1 ∧
    t.part.store.passes = (if s.part.store.scrubPos = 81 then bump s.part.store.passes else s.part.store.passes) ∧
    t.part.sampler.busPlan = .unread ∧
    (∀ pos, s.part.sampler.busPlan = .at pos → t.part.sampler.busMissed = bump s.part.sampler.busMissed) ∧
    ((∀ pos, s.part.sampler.busPlan ≠ .at pos) → t.part.sampler.busMissed = s.part.sampler.busMissed)) ∧
  (∀ (s : State) (q : Nat) (err : Int), s.part.en = true → s.part.tb.endDue = true → s.part.Quiet →
    s.part.store.recordValid .config = true → s.part.store.ReadableAll [1, 2] →
    ((s.part.store.word s.part.store.scrubPos).valid = true →
      (s.part.store.word s.part.store.scrubPos).broken s.part.store.scrubPos = false) →
    field (s.part.store.word 1).fields 0 = 1 → s.part.tb.capture = some q →
    let syncPos := field (s.part.store.word 1).fields 1
    let capture := field (s.part.store.word 2).fields 0
    let jump := field (s.part.store.word 2).fields 1
    (err = (q : Int) - syncPos ∨ err = (q : Int) - syncPos - s.part.tb.p ∨ err = (q : Int) - syncPos + s.part.tb.p) →
    -((s.part.tb.p / 2 : Nat) : Int) < err → err ≤ (s.part.tb.p / 2 : Nat) →
    ∃ t, exec .masterCycleEnd s = .next t ∧ t.part.tb.lastErr = err ∧
      t.part.tb.extras = min (s.part.tb.extras + s.part.tb.tally) 65535 ∧ t.part.tb.missing = s.part.tb.missing ∧
      (err.natAbs ≤ capture → t.part.tb.lastAdj = max (-(jump : Int)) (min (jump : Int) err) ∧
        t.part.tb.run = min (s.part.tb.run + 1) 4 ∧ t.part.tb.slips = s.part.tb.slips ∧ t.part.up = s.part.up) ∧
      (capture < err.natAbs → t.part.tb.lastAdj = (if 0 < err then (jump : Int) else -(jump : Int)) ∧
        t.part.tb.run = 0 ∧ t.part.tb.slips = bump s.part.tb.slips ∧
        (s.part.up.queue.length < 8 → t.part.up = s.part.up.append (.notice (.syncSlip err)))) ∧
      (∀ m, t.part.motor m =
        if (s.part.motor m).slot.state = .startPending ∨ (s.part.motor m).slot.state = .running then
          { s.part.motor m with pace := { (s.part.motor m).pace with
              trim := max (-1023) (min 1023 ((s.part.motor m).pace.trim + t.part.tb.lastAdj))
              trimLoss := if 1023 < ((s.part.motor m).pace.trim + t.part.tb.lastAdj).natAbs then
                bump (s.part.motor m).pace.trimLoss else (s.part.motor m).pace.trimLoss } }
        else s.part.motor m) ∧
      s.part.store.Corrected { t.part.store with scrubPos := s.part.store.scrubPos } ∧ t.part.bus = s.part.bus ∧
      t.part.link = s.part.link ∧ t.part.sampler.holds = s.part.sampler.holds ∧ t.part.sampler.fifo = s.part.sampler.fifo ∧
      t.part.sampler.waiting = s.part.sampler.waiting) ∧
  (∀ s : State, s.part.en = true → s.part.tb.endDue = true → s.part.Quiet →
    (∀ pos : Fin 82, pos = 1 ∨ pos = s.part.store.scrubPos → (s.part.store.word pos).valid = true →
      (s.part.store.word pos).broken pos = false) →
    (∀ m, (s.part.motor m).pace.trim.natAbs ≤ 1023) →
    let enabled := s.part.store.recordValid .config = true ∧ field (s.part.store.word 1).fields 0 ≠ 0
    ¬enabled ∨ s.part.tb.capture = none →
    ∃ t, exec .masterCycleEnd s = .next t ∧ t.part.tb.lastAdj = 0 ∧ t.part.tb.run = 0 ∧ t.part.tb.len = s.part.tb.p ∧
      t.part.tb.lastErr = s.part.tb.lastErr ∧ t.part.tb.extras = s.part.tb.extras ∧ t.part.tb.slips = s.part.tb.slips ∧
      (¬enabled → t.part.tb.missing = s.part.tb.missing) ∧ (enabled → t.part.tb.missing = bump s.part.tb.missing) ∧
      t.part.motors = s.part.motors ∧ t.part.up = s.part.up ∧ t.part.bus = s.part.bus ∧ t.part.link = s.part.link ∧
      s.part.store.Corrected { t.part.store with scrubPos := s.part.store.scrubPos })

/-- SYNC_EDGE (R4): the first edge of a cycle is its capture, a further one raises the tally; nothing else changes. -/
def Obligations.SyncEdgeIsStamped : Prop :=
  ∀ s : State, s.part.en = true →
    (s.part.tb.capture = none →
      exec .syncEdge s = .next { s with part := { s.part with tb := { s.part.tb with capture := some s.part.tb.pos } } }) ∧
    (∀ q, s.part.tb.capture = some q →
      exec .syncEdge s = .next { s with part := { s.part with tb := { s.part.tb with tally := bump s.part.tb.tally } } })

/-! ## Valleys and gates -/

/-- FIRST_VALLEY (R10 to R12, R23, R40, R44, R45, R50, R75, R94 to R96): at the offset position the motor enters RUNNING, at
position 0 before the cycle end of that instant or after it; period 0 begins as `Part.Opened` spells it; a BLOCK motor begins
in ALIGN. That a gate whose valley level is off has no turn-on pending either is, apart from R17's change of pattern, the
model's reading (log 18). -/
def Obligations.FirstValleyBeginsTheRun : Prop :=
  ∀ (s : State) (m : Slot) (w : StartWait), s.part.en = true → s.part.Quiet → s.part.Fits → s.part.PeriodInRange →
    (s.part.motor m).slot.state = .startPending → (s.part.motor m).slot.start = some w → w.taken = false →
    (s.part.tb.endDue = false ∧ s.part.tb.pos = w.offset ∧ w.offset < s.part.tb.len) ∨
      (s.part.tb.endDue = true ∧ w.offset = 0) →
    s.part.ValleyReadable m → s.part.NotStarved m 0#8 →
    ∃ t len sc, exec (.firstValley m) s = .next t ∧ t.pending = s.pending ∧ s.part.Beside t.part m ∧
      s.part.Opened t.part m 0#8 len sc ∧
      (t.part.motor m).slot = { (s.part.motor m).slot with state := .running, start := none, park := false } ∧
      (field (s.part.store.profileWord m 0) 0 = 0 → (t.part.motor m).seqr.run = none) ∧
      (field (s.part.store.profileWord m 0) 0 ≠ 0 → ∃ r, (t.part.motor m).seqr.run = some r ∧ r.data = .align 1 ∧
        r.step = Fin.ofNat 6 (field (s.part.store.profileWord m 0) 3) ∧ r.search = none ∧ r.sched = none ∧
        r.timeout = none)

/-- VALLEY (R11, R12, R40, R45, R50, R73 to R75, R94 to R96): the next period begins, as `Part.Opened` spells it, at the old
valley plus its length. A motor in ALIGN counts on, or enters RAMP with its first forced commutation a T_START away; a valley
leaves the rest of the sequencer as it is. That a gate whose valley level is off has no turn-on pending after the valley is the
model's reading (log 18: R56 and R66 do not name it). -/
def Obligations.ValleyBeginsTheNextPeriod : Prop :=
  ∀ (s : State) (m : Slot) (c : Carrier), s.part.en = true → s.part.Quiet → s.part.PeriodInRange →
    (s.part.motor m).slot.state = .running → (s.part.motor m).slot.park = false →
    (s.part.motor m).pace.carrier = some c → later c.valley c.len = s.part.now → s.part.ValleyReadable m →
    s.part.NotStarved m (c.period + 1#8) →
    let w := s.part.store.profileWord m
    ∃ t len sc, exec (.valley m) s = .next t ∧ t.pending = s.pending ∧ s.part.Beside t.part m ∧
      s.part.Opened t.part m (c.period + 1#8) len sc ∧ (t.part.motor m).slot = (s.part.motor m).slot ∧
      ∀ (r : SeqRun), field (w 0) 0 ≠ 0 → (s.part.motor m).seqr.run = some r → r.post = none →
        (∃ u, (t.part.motor m).seqr.run = some u ∧ sc.drive = .block r.step u.pulse r.opening false ∧
          ((∀ n, r.data ≠ .align n) → u = { r with dir := u.dir, pulse := u.pulse, opening := [] }) ∧
          (∀ n, r.data = .align n → n < field (w 10) 1 →
            u = { r with dir := u.dir, pulse := u.pulse, opening := [], data := .align (n + 1) }) ∧
          (∀ n, r.data = .align n → field (w 10) 1 ≤ n →
            u = { r with
              dir := u.dir, pulse := u.pulse, opening := [], data := .ramp (field (w 11) 0) 0 0
              search := some ⟨s.part.now, true, none⟩, stepConfirmed := false
              sched := some ⟨later s.part.now (field (w 11) 0), .ramp, false⟩ }))

/-- R40 to R43: the setpoint queue at a valley. An empty queue is HELD and counts as starved; a head record with no
apply-at, or due now, is taken with its duties saturated; one due within 127 periods waits; any other is stale, is discarded
and the next one is judged. A valley, or first valley, that finds the queue empty or empties it of stale records, and so
starves the motor up to its HOLD_LIMIT, stops it (R27, R28); no period is begun. -/
def Obligations.SetpointQueueAtTheValley : Prop :=
  (∀ (q : SetQueue) (period : Byte),
    q.decide period [] =
      (.held, { q with recs := [], starved := min (q.starved + 1) 255, starvedValleys := min (q.starvedValleys + 1) 65535 })) ∧
  (∀ (q : SetQueue) (period : Byte) (r : SetRec) (l : List SetRec),
    let taken := q.decide period (r :: l) =
      (.new, { q with
        recs := l, starved := 0
        applied := ⟨r.tag, ⟨min r.duty.u.toNat 32768, min r.duty.v.toNat 32768, min r.duty.w.toNat 32768⟩⟩ })
    (r.applyAt = none → taken) ∧
    ∀ a, r.applyAt = some a →
      let delta := (a.toNat + 256 - period.toNat) % 256
      (delta = 0 → taken) ∧
      (1 ≤ delta → delta ≤ 127 → q.decide period (r :: l) = (.waiting, { q with recs := r :: l })) ∧
      (128 ≤ delta → q.decide period (r :: l) =
        ({ q with stales := min (q.stales + 1) 65535, staleFlag := true } : SetQueue).decide period l)) ∧
  (∀ (s : State) (m : Slot) (period : Byte) (c : Instr), s.part.en = true → s.part.Quiet →
    (c = .valley m ∧ (s.part.motor m).slot.state = .running ∧ (s.part.motor m).slot.park = false ∧
      ∃ k, (s.part.motor m).pace.carrier = some k ∧ later k.valley k.len = s.part.now ∧ period = k.period + 1#8) ∨
    (c = .firstValley m ∧ (s.part.motor m).slot.state = .startPending ∧ period = 0#8 ∧
      ∃ w, (s.part.motor m).slot.start = some w ∧ w.taken = false ∧
        ((s.part.tb.endDue = false ∧ s.part.tb.pos = w.offset ∧ w.offset < s.part.tb.len) ∨
          (s.part.tb.endDue = true ∧ w.offset = 0))) →
    s.part.store.Readable ((RecordId.profile m).pos 15) →
    -- the queue is empty, or its records are all stale
    ((s.part.motor m).setq.decide period (s.part.motor m).setq.recs).1 = .held →
    field (s.part.store.profileWord m 15) 0 ≤ (s.part.motor m).setq.starved + 1 →
    field (s.part.store.profileWord m 15) 0 ≤ 255 →
    ∃ t, exec c s = .next t ∧ t.pending = s.pending ∧ s.part.Beside t.part m ∧
      s.part.SafeStopped t.part m .starved ∧
      (t.part.motor m).setq.starvedValleys = bump (s.part.motor m).setq.starvedValleys ∧
      (t.part.motor m).setq.stales = ((s.part.motor m).setq.decide period (s.part.motor m).setq.recs).2.stales ∧
      (t.part.motor m).scheds.latest.map (·.period) = (s.part.motor m).scheds.latest.map (·.period) ∧
      ((s.part.motor m).NothingInFlight → s.part.up.queue.length < 8 →
        t.part.up = s.part.up.append (.notice (.safeStop m .starved))))

/-- EDGE (R57, R65, R66): the edges of the list whose carrier time has come are requested together. A gate that none of
them names is as before; a turn-off alone on its gate leaves it off with nothing pending; a turn-on alone in its phase
leaves the gate on, or pending where the interlock holds it back. PENDING_TURN_ON (R65, R68): once the partner has been off
for the dead time the gate turns on; a counted delay is counted; nothing else changes. -/
def Obligations.EdgesAreMadeAtTheirInstant : Prop :=
  (∀ (s : State) (m : Slot) (c : Carrier) (sc : Schedule), s.part.en = true → s.part.Quiet →
    (s.part.motor m).slot.state = .running → (s.part.motor m).pace.carrier = some c →
    (s.part.motor m).scheds.latest = some sc →
    let due := fun (e : Edge) => e ∈ sc.edges ∧ e.made = false ∧ e.dueAt c.len = ticksFrom s.part.now c.valley
    let q := s.part.motor m
    (∃ e, due e) → ∃ t, exec (.edge m) s = .next t ∧ t.pending = s.pending ∧
      t.part = s.part.modMotor m (fun q => { q with
        gates := (t.part.motor m).gates
        scheds := { q.scheds with
          latest := some { sc with edges := sc.edges.map fun e =>
            if e.made = false ∧ e.dueAt c.len = ticksFrom s.part.now c.valley then { e with made := true } else e } } }) ∧
      (∀ x g, (∀ e, due e → ¬(e.phase = x ∧ e.switch = g)) →
        (t.part.motor m).gates.gateAt x g = q.gates.gateAt x g) ∧
      (∀ e, due e → e.on = false → (∀ f, due f → f.phase = e.phase → f.switch = e.switch → f = e) →
        ((t.part.motor m).gates.gateAt e.phase e.switch).on = false ∧
        ((t.part.motor m).gates.gateAt e.phase e.switch).pend = none) ∧
      (∀ e, due e → e.on = true → (∀ f, due f → f.phase = e.phase → f = e) →
        (t.part.motor m).gates.gateAt e.phase e.switch =
          if (q.gates.gateAt e.phase e.switch).on then q.gates.gateAt e.phase e.switch
          else if (q.gates.gateAt e.phase e.switch.other).on = false ∧
              (q.gates.gateAt e.phase e.switch.other).gapOver s.part.now q.dt = true then
            { q.gates.gateAt e.phase e.switch with on := true, pend := none }
          else { q.gates.gateAt e.phase e.switch with pend := some ⟨s.part.now, true⟩ })) ∧
  (∀ (s : State) (m : Slot) (x : Phase) (g : Switch) (pd : PendOn), s.part.en = true → s.part.Quiet →
    ((s.part.motor m).gates.gateAt x g).pend = some pd → ((s.part.motor m).gates.gateAt x g.other).on = false →
    ((s.part.motor m).gates.gateAt x g.other).gapOver s.part.now (s.part.motor m).dt = true →
    exec (.pendingTurnOn m x g) s = .next { s with part := s.part.modMotor m fun q => { q with
      gates := { q.gates.setGate x g { q.gates.gateAt x g with on := true, pend := none } with
        delays := if pd.counted = true ∧ pd.reqAt ≠ s.part.now then bump q.gates.delays else q.gates.delays } } })

/-! ## Commutation -/

/-- RAMP_COMMUTATION (R76, R77, R78, R87, R88, R89, R117): the step moves, the period's edges are rewritten and its unfrozen
requests are MISSED, as `Part.Commutated` spells it; the next interval shrinks by RAMP_RATE down to T_HANDOVER. That a HIGH
turn-on which still waits is given up with the pulsed role is the model's reading (log 19: R88 names a HIGH gate that is on). -/
def Obligations.RampCommutationMovesTheStep : Prop :=
  ∀ (s : State) (m : Slot) (r : SeqRun) (t0 confirm hold : Nat) (late : Bool), s.part.en = true → s.part.Quiet →
    (s.part.motor m).slot.state = .running → (s.part.motor m).seqr.run = some r → r.data = .ramp t0 confirm hold →
    r.sched = some ⟨s.part.now, .ramp, late⟩ → (s.part.motor m).TakesCommutation s.part.now →
    s.part.store.ReadableAll [(RecordId.profile m).pos 11, (RecordId.profile m).pos 12, (RecordId.profile m).pos 13] →
    let handover := field (s.part.store.profileWord m 12) 0
    let next := max handover (t0 - t0 * field (s.part.store.profileWord m 11) 1 / 256)
    (t0 ≠ handover ∨ hold + 1 < field (s.part.store.profileWord m 13) 1) →
    ∃ t, exec (.rampCommutation m) s = .next t ∧ t.pending = s.pending ∧ s.part.Beside t.part m ∧
      (t.part.motor m).slot = (s.part.motor m).slot ∧
      s.part.Commutated t.part m r .ramp false ∧
      (t.part.motor m).seqr.run.map (·.data) =
        some (.ramp next (if r.stepConfirmed then confirm else 0) (if t0 = handover then hold + 1 else hold)) ∧
      (t.part.motor m).seqr.run.map (·.sched) = some (some ⟨later s.part.now next, .ramp, false⟩) ∧
      (t.part.motor m).seqr.ramps = bump (s.part.motor m).seqr.ramps

/-- In CLOSED, DETECTED_COMMUTATION (R84, R85, R87) moves the step and sets the search timeout of the new step;
SEARCH_TIMEOUT below LOST_LIMIT (R85) raises the forced and lost counts and forces a commutation. What else a commutation does
(R88, R89, R117) is as `Part.Commutated` spells it. That a HIGH turn-on which still waits is given up with the pulsed role is
the model's reading (log 19: R88 names a HIGH gate that is on). -/
def Obligations.ClosedCommutationsMoveTheStep : Prop :=
  (∀ (s : State) (m : Slot) (r : SeqRun) (tRef : Tick) (tStep f lost limit : Nat) (late : Bool), s.part.en = true →
      s.part.Quiet → (s.part.motor m).slot.state = .running → (s.part.motor m).seqr.run = some r →
      r.data = .closed tRef tStep f lost limit → r.sched = some ⟨s.part.now, .detected, late⟩ →
      (s.part.motor m).TakesCommutation s.part.now →
      ∃ t, exec (.detectedCommutation m) s = .next t ∧ t.pending = s.pending ∧ s.part.Beside t.part m ∧
        (t.part.motor m).slot = (s.part.motor m).slot ∧
        s.part.Commutated t.part m r .detected late ∧
        (t.part.motor m).seqr.run.map (·.data) = some r.data ∧ (t.part.motor m).seqr.run.map (·.sched) = some none ∧
        (t.part.motor m).seqr.run.map (·.timeout) = some (some (later s.part.now tStep))) ∧
  (∀ (s : State) (m : Slot) (r : SeqRun) (se : Search) (tRef : Tick) (tStep f lost limit : Nat), s.part.en = true →
      s.part.Quiet → (s.part.motor m).slot.state = .running → (s.part.motor m).seqr.run = some r →
      r.data = .closed tRef tStep f lost limit → r.timeout = some s.part.now → r.search = some se → se.searching = true →
      lost + 1 < limit → (s.part.motor m).TakesCommutation s.part.now →
      ∃ t, exec (.searchTimeout m) s = .next t ∧ t.pending = s.pending ∧ s.part.Beside t.part m ∧
        (t.part.motor m).slot = (s.part.motor m).slot ∧
        s.part.Commutated t.part m r .timeout false ∧
        (t.part.motor m).seqr.run.map (·.data) = some (.closed tRef tStep (min (f + 1) 15) (lost + 1) limit) ∧
        (t.part.motor m).seqr.run.map (·.timeout) = some (some (later s.part.now tStep)) ∧
        (t.part.motor m).seqr.timeouts = bump (s.part.motor m).seqr.timeouts)

/-- R89: a commutation that comes due while the period's list holds two entries is not made: it is counted, kept with its
kind and LATE flag, and the search stops; at the next valley it is made first, the unfrozen requests are MISSED (R117), and the
period is planned on its step, with the entry at carrier time 0 marked POSTPONED (R73, R76, R78, R85). That a gate whose
valley level is off has no turn-on pending after that valley is the model's reading (log 18). -/
def Obligations.PostponedCommutationsWaitForTheValley : Prop :=
  (∀ (s : State) (m : Slot) (c : Carrier) (sc : Schedule) (r : SeqRun) (se : Search), s.part.en = true → s.part.Quiet →
    (s.part.motor m).slot.state = .running → (s.part.motor m).pace.carrier = some c → c.atNext s.part.now = false →
    (s.part.motor m).scheds.latest = some sc → 2 ≤ sc.comms.length → (s.part.motor m).seqr.run = some r →
    r.search = some se →
    let q := s.part.motor m
    let w := s.part.store.profileWord m
    -- the command leaves all but the sequencer of the motor, and corrections in the store
    let postponed := fun (cmd : Instr) (kind : CommKind) (late : Bool) (data : SubData) (timeouts : Nat) =>
      ∃ st, s.part.store.Corrected st ∧ exec cmd s = .next { s with part := { s.part with
        store := st
        motors := s.part.motors.set m { q with seqr := { q.seqr with
          postponed := bump q.seqr.postponed
          timeouts := timeouts
          run := some { r with
            data := data, post := some ⟨kind, late⟩, sched := none, timeout := none
            search := some { se with searching := false } } } } } }
    (∀ t0 confirm hold late, r.data = .ramp t0 confirm hold → r.sched = some ⟨s.part.now, .ramp, late⟩ →
      s.part.store.ReadableAll [(RecordId.profile m).pos 12, (RecordId.profile m).pos 13] →
      (t0 ≠ field (w 12) 0 ∨ hold + 1 < field (w 13) 1) →
      postponed (.rampCommutation m) .ramp false
        (.ramp t0 confirm (if t0 = field (w 12) 0 then hold + 1 else hold)) q.seqr.timeouts) ∧
    (∀ late, r.sched = some ⟨s.part.now, .detected, late⟩ →
      postponed (.detectedCommutation m) .detected late r.data q.seqr.timeouts) ∧
    (∀ tRef tStep f lost limit, r.data = .closed tRef tStep f lost limit → r.timeout = some s.part.now →
      se.searching = true → lost + 1 < limit →
      postponed (.searchTimeout m) .timeout false (.closed tRef tStep (min (f + 1) 15) (lost + 1) limit)
        (bump q.seqr.timeouts))) ∧
  (∀ (s : State) (m : Slot) (c : Carrier) (r : SeqRun) (pc : PostComm), s.part.en = true → s.part.Quiet →
    s.part.PeriodInRange → (s.part.motor m).slot.state = .running → (s.part.motor m).slot.park = false →
    (s.part.motor m).pace.carrier = some c → later c.valley c.len = s.part.now → s.part.ValleyReadable m →
    s.part.NotStarved m (c.period + 1#8) → field (s.part.store.profileWord m 0) 0 ≠ 0 →
    (s.part.motor m).seqr.run = some r → r.post = some pc → r.opening = [] →
    let q := s.part.motor m
    let w := s.part.store.profileWord m
    let next := nextStep r.dir r.step
    let opens := fun (data : SubData) (sched : Option SchedComm) (timeout : Option Tick) =>
      ∃ t len sc u, exec (.valley m) s = .next t ∧ t.pending = s.pending ∧ s.part.Beside t.part m ∧
        s.part.Opened t.part m (c.period + 1#8) len sc ∧ (t.part.motor m).seqr.run = some u ∧
        u = { r with
          step := next, dir := u.dir, pulse := u.pulse, data := data, search := some ⟨s.part.now, true, none⟩
          stepConfirmed := false, sched := sched, post := none, timeout := timeout } ∧
        sc.drive = .block next u.pulse [⟨0, next, pc.kind, pc.late, true⟩] false ∧
        (t.part.motor m).seqr.ramps = (if pc.kind = .ramp then bump q.seqr.ramps else q.seqr.ramps) ∧
        (t.part.motor m).samp = { q.samp with missedState := min (q.samp.missedState + q.unfrozenCount) 65535 } ∧
        ∀ old ∈ (t.part.motor m).scheds.older, ∀ x ∈ old.reqs, x.status ≠ .waiting
    (∀ t0 confirm hold, r.data = .ramp t0 confirm hold → pc.kind = .ramp →
      let interval := max (field (w 12) 0) (t0 - t0 * field (w 11) 1 / 256)
      opens (.ramp interval (if r.stepConfirmed then confirm else 0) hold)
        (some ⟨later s.part.now interval, .ramp, false⟩) none) ∧
    (∀ tRef tStep f lost limit, r.data = .closed tRef tStep f lost limit → pc.kind ≠ .ramp →
      opens r.data none (some (later s.part.now tStep))))

/-- R78, R85, R142, R143: reaching RAMP_HOLD, or LOST_LIMIT, makes no commutation but a STALL trip with the count reached and
the floating phase of the step. -/
def Obligations.StallTripsTheMotor : Prop :=
  (∀ (s : State) (m : Slot) (r : SeqRun) (confirm hold : Nat) (late : Bool), s.part.en = true → s.part.Quiet → s.part.Fits →
    (s.part.motor m).slot.state = .running → (s.part.motor m).seqr.run = some r →
    r.data = .ramp (field (s.part.store.profileWord m 12) 0) confirm hold → r.sched = some ⟨s.part.now, .ramp, late⟩ →
    s.part.store.ReadableAll [(RecordId.profile m).pos 12, (RecordId.profile m).pos 13] →
    field (s.part.store.profileWord m 13) 1 ≤ hold + 1 →
    ∃ t, exec (.rampCommutation m) s = .next t ∧ s.part.Beside t.part m ∧
      s.part.TrippedBy t.part m ⟨.stall, (s.part.motor m).lastPeriod, (hold + 1 : Nat), some (rolesOf r.step).floating⟩ ∧
      (t.part.motor m).prot.stallTrips = bump (s.part.motor m).prot.stallTrips) ∧
  (∀ (s : State) (m : Slot) (r : SeqRun) (se : Search) (tRef : Tick) (tStep f lost limit : Nat), s.part.en = true →
    s.part.Quiet → s.part.Fits → (s.part.motor m).slot.state = .running → (s.part.motor m).seqr.run = some r →
    r.data = .closed tRef tStep f lost limit → r.timeout = some s.part.now → r.search = some se → se.searching = true →
    limit ≤ lost + 1 →
    ∃ t, exec (.searchTimeout m) s = .next t ∧ s.part.Beside t.part m ∧
      s.part.TrippedBy t.part m ⟨.stall, (s.part.motor m).lastPeriod, (limit : Nat), some (rolesOf r.step).floating⟩ ∧
      (t.part.motor m).prot.stallTrips = bump (s.part.motor m).prot.stallTrips)

/-- R80, R81, R118: a BLOCK_ON request completes with currents within the limit. A sample that is not valid for search leaves
the sequencer as it is; one that shows no crossing becomes the previous sample; one that shows a crossing stops the search
and is counted, EARLY where it is the first of its step. A crossing that is not EARLY in RAMP is confirmed and hands over to
CLOSED at CONFIRM (R77, R79); in CLOSED it gives the step interval (R83); either schedules the commutation, or makes it at
once where its instant is this one or past, then LATE (R84). -/
def Obligations.CrossingsAreActedOn : Prop :=
  ∀ (s : State) (code : Code) (e : FifoEntry) (rest : List FifoEntry) (m : Slot) (id : Nat) (entry : Fin 6) (tag : Byte)
      (sc : Schedule) (r : Request) (cur float : Code) (at_ : Tick) (ru : SeqRun), s.part.en = true → s.part.Quiet →
    s.part.sampler.conv = some s.part.now → s.part.sampler.fifo = e :: rest → e.req = .motor m id entry tag →
    (s.part.motor m).scheds.findReq id entry = some (sc, r) →
    r.kind = .blockOn → r.channels.length = 3 → r.codes = [cur, float] → r.frozenAt = some at_ → r.stayed = true →
    r.phases.length = 3 → (s.part.motor m).slot.state = .running → (s.part.motor m).seqr.run = some ru →
    s.part.store.ReadableAll ([8, 9, 12, 13, 14].map (RecordId.profile m).pos) →
    let w := s.part.store.profileWord m
    ((cur.toNat : Int) - r.offsets.getD 0 0).natAbs ≤ field (w 8) 0 →
    let q := s.part.motor m
    let x : Int := (float.toNat : Int) - (code.toNat / 2 : Nat)
    let valid := r.inStep = true ∧ ∃ se, ru.search = some se ∧ se.searching = true ∧
      atOrAfter at_ (later se.ref (field (w 8) 1)) = true
    let ends := fun (t : State) => exec (.conversionComplete code) s = .next t ∧ t.pending = s.pending ∧
      s.part.Beside t.part m ∧ (t.part.motor m).slot = q.slot ∧ (t.part.motor m).prot = q.prot
    (¬valid → ∃ t, ends t ∧ (t.part.motor m).seqr = q.seqr ∧ (t.part.motor m).gates = q.gates) ∧
    ∀ se, ru.search = some se → valid →
      let crossed := if risingExpected ru.dir ru.step then 0 ≤ x else x ≤ 0
      (¬crossed → ∃ t, ends t ∧ (t.part.motor m).gates = q.gates ∧
        (t.part.motor m).seqr = { q.seqr with run := some { ru with search := some { se with prev := some ⟨x, at_⟩ } } }) ∧
      (crossed →
        let tzc := match se.prev with
          | none => at_
          | some a => later a.instant (ticksFrom at_ a.instant * a.x.natAbs / (a.x.natAbs + x.natAbs))
        let early := se.prev = none
        let stopped := { ru with search := some { se with searching := false } }
        let counted := { q.seqr with
          detected := bump q.seqr.detected, early := if early then bump q.seqr.early else q.seqr.early }
        -- the crossing-detected flag of the request's own schedule, where that is still the most recent one
        let marked := fun (t : State) => q.scheds.latest = some sc →
          ∀ step u comms crossing, sc.drive = .block step u comms crossing →
          ∃ more, (t.part.motor m).scheds.latest.map (·.drive) = some (.block step u (comms ++ more) true)
        -- in CLOSED with the step interval tStep: the commutation at its instant, now or later
        let schedules := fun (before : SeqRun) (tStep : Nat) =>
          let data := SubData.closed tzc tStep 0 0 (field (w 9) 1)
          let instant := later tzc (tStep * (16 - field (w 9) 0) / 32)
          (instant ≠ s.part.now → atOrAfter instant s.part.now = true →
            ∃ t, ends t ∧ marked t ∧ (t.part.motor m).gates = q.gates ∧ (t.part.motor m).seqr = { counted with
              run := some { before with data := data, sched := some ⟨instant, .detected, false⟩ } }) ∧
          (instant = s.part.now ∨ atOrAfter instant s.part.now = false → q.TakesCommutation s.part.now →
            ∃ t u, ends t ∧ marked t ∧ (t.part.motor m).seqr.run = some u ∧ u.step = nextStep ru.dir ru.step ∧
              u.data = data ∧ u.search = some ⟨s.part.now, true, none⟩ ∧ u.sched = none ∧
              u.timeout = some (later s.part.now tStep) ∧ (t.part.motor m).seqr = { counted with
                run := some u
                late := if instant = s.part.now then q.seqr.late else bump q.seqr.late })
        (∀ t0 confirm hold, ru.data = .ramp t0 confirm hold →
          (early → ∃ t, ends t ∧ marked t ∧ (t.part.motor m).gates = q.gates ∧
            (t.part.motor m).seqr = { counted with run := some stopped }) ∧
          (¬early → confirm + 1 < field (w 12) 1 → ∃ t, ends t ∧ marked t ∧ (t.part.motor m).gates = q.gates ∧
            (t.part.motor m).seqr = { counted with run := some { stopped with
              data := .ramp t0 (min (confirm + 1) 15) hold, stepConfirmed := true } }) ∧
          (¬early → field (w 12) 1 ≤ confirm + 1 → schedules { stopped with stepConfirmed := true } t0)) ∧
        (∀ tRef tStep f lost limit, ru.data = .closed tRef tStep f lost limit →
          schedules { stopped with timeout := none }
            (max (field (w 13) 0) (min (field (w 14) 0) (ticksFrom tzc tRef / (1 + f))))))

/-! ## The window finder -/

/-- R94, R96, R98 to R103, R106: when an entry is due, and the request that it makes: channels, zero offsets, phases of its
result entries and window, by its kind. -/
def Obligations.RequestsFollowTheKind : Prop :=
  ∀ (e : PlanEntry) (i : FinderInput),
    (∀ period, e.due period = true ↔ e.enabled = true ∧ period.toNat % e.decimation = 0) ∧
    (∀ d, let r := e.request i d
      r.entry = e.index ∧ r.tag = e.tag ∧ r.kind = e.kind ∧ r.priority = e.priority ∧ r.motorPriority = i.motorPriority ∧
        r.status = (if r.window = none then .unmeasurable else .waiting) ∧ r.frozenAt = none ∧ r.codes = [] ∧
        r.joined = false) ∧
    (∀ plan prev, e.kind = .legPair → ∀ x y z : Phase, x.toNat < y.toNat → z ≠ x → z ≠ y →
      let r := e.request i (.sine plan prev)
      let start := fun p => (plan.pulse.get p).s
      -- z is left out: the smallest start, of equal ones the highest phase
      (start z < start x ∨ (start z = start x ∧ x.toNat < z.toNat)) →
      (start z < start y ∨ (start z = start y ∧ y.toNat < z.toNat)) →
      let tail := fun p => match prev with
        | none => none
        | some (l : PrevPeriod) =>
          match l.cls.get p with
          | .empty => none
          | .between => some ((l.e.get p : Int) + i.dt + i.st - l.len)
          | .full => some ((i.dt : Int) + i.st)
      let earliest : Int := match tail x, tail y with
        | none, none => 0
        | some a, none => max 0 (a + 24)
        | none, some b => max 0 (b + 24)
        | some a, some b => max 0 (max a b + 24)
      let latest : Int := (min (start x) (start y) : Nat) - 1
      r.channels = [i.channels.get x, i.channels.get y] ∧ r.offsets = [i.offsets.get x, i.offsets.get y] ∧
        r.legs = [x, y] ∧ r.phases = [some .u, some .v, some .w] ∧
        r.window = if earliest ≤ latest then some (earliest.toNat, earliest.toNat, latest.toNat) else none) ∧
    (∀ plan prev, e.kind = .linkA ∨ e.kind = .linkB →
      let r := e.request i (.sine plan prev)
      let found := if e.kind = .linkA then plan.winA else plan.winB
      r.channels = [i.channels.u] ∧ r.offsets = [i.offsets.u] ∧
        r.phases = [some (if e.kind = .linkA then plan.mx else plan.mn)] ∧
        (found = none → r.window = none) ∧ ∀ a b, found = some (a, b) → r.window = some (a, a, b)) ∧
    (∀ step u, e.kind = .blockOn →
      let r := e.request i (.block step u)
      let c1 := if u.w = i.p then min i.p i.len else if u.e < i.len then u.e else i.len - 1
      let earliest := u.s + i.st + 24
      r.channels = [i.channels.u, i.voltages.get (rolesOf step).floating, i.busChannel] ∧ r.offsets = [i.offsets.u] ∧
        r.phases = [some (rolesOf step).pulsed, some (rolesOf step).floating, none] ∧
        r.window = if 0 < u.w ∧ earliest < c1 then some (earliest, (earliest + (c1 - 1)) / 2, c1 - 1) else none) ∧
    (∀ d, e.kind = .auxValley ∨ e.kind = .auxPeak →
      let r := e.request i d
      let start := if e.kind = .auxValley then 0 else i.p / 2
      r.channels = e.aux ∧ r.offsets = [] ∧ r.phases = e.aux.map (fun _ => none) ∧
        r.window = some (start, start, min (start + 255) (i.len - 1)))


/-! ## Sampling unit -/

/-- WAITING_LIST_JOIN (R113, R114): at its planned instant a placed request takes its place on the waiting list.
HOLD_ELIGIBLE (R110): a hold that has been FREE for the acquisition time is eligible; nothing else changes. The mark it
leaves is the model's own (log 5). The place is that of the five keys of R114: latest instant, motor priority with the bus
request last, slot, entry priority, entry index. -/
def Obligations.RequestsJoinAndHoldsBecomeEligible : Prop :=
  (∀ a b : WaitItem,
    (a.latest ≠ b.latest → (a.before b = true ↔ (b.latest - a.latest).toNat < 2 ^ 31)) ∧
    (a.latest = b.latest →
      (a.req = .bus → a.before b = false) ∧ (a.req ≠ .bus → b.req = .bus → a.before b = true) ∧
      ∀ m n ia ib ea eb ta tb, a.req = .motor m ia ea ta → b.req = .motor n ib eb tb →
        (a.before b = true ↔
          b.motorPriority < a.motorPriority ∨
          (a.motorPriority = b.motorPriority ∧ (m.toNat < n.toNat ∨
            (m = n ∧ (b.priority < a.priority ∨ (a.priority = b.priority ∧ ea < eb)))))))) ∧
  (∀ (s : State) (m : Slot) (entry : Fin 6) (sc : Schedule) (r : Request) (earliest planned latest : Nat), s.part.en = true →
      s.part.Quiet → (s.part.motor m).placedRequest entry = some (sc, r) → r.window = some (earliest, planned, latest) →
      later sc.valley planned = s.part.now →
      ∃ t, exec (.waitingListJoin m entry) s = .next t ∧ t.pending = s.pending ∧ s.part.Beside t.part m ∧
        JoinedAt
          { req := .motor m sc.id r.entry r.tag, holds := r.channels.length, planned := s.part.now
            latest := later sc.valley latest, motorPriority := r.motorPriority, priority := r.priority }
          s.part.sampler.waiting t.part.sampler.waiting ∧
        t.part.sampler = { s.part.sampler with
          waiting := t.part.sampler.waiting
          highWater := max s.part.sampler.highWater (s.part.sampler.waiting.length + 1) } ∧
        t.part.up = s.part.up ∧ t.part.link = s.part.link ∧
        t.part.motor m = { s.part.motor m with scheds := (t.part.motor m).scheds } ∧
        (t.part.motor m).placedRequest entry = none) ∧
  (∀ (s : State) (h : HoldId) (since : Tick), s.part.en = true → s.part.Quiet →
      s.part.sampler.holds.get h = .free since false → 24 ≤ ticksFrom s.part.now since →
      exec (.holdEligible h) s = .next { s with part := s.part.modSampler fun sa =>
        { sa with holds := sa.holds.set h (.free since true) } })

/-- FREEZE (R111, R112, R115): the head of the waiting list is frozen in the eligible holds of lowest index in channel
order; its values join the FIFO; an idle converter starts. For a motor's request and for the bus supervisor's. R117: a freeze
comes before a cycle end of its instant that trips the request's motor, too: the request then stays FROZEN, its values in
their holds (that the cycle end comes first is DisturbedWordsAreHandled). `Part.ready` says when else a freeze comes before
a step that cancels; how it weighs a bus request yet to be placed is the model's reading (log 31). -/
def Obligations.FreezeTakesTheHeadOfTheList : Prop :=
  (∀ (s : State) (m : Slot) (id : Nat) (entry : Fin 6) (tag : Byte) (w : WaitItem) (rest : List WaitItem) (sc : Schedule)
      (r : Request), s.part.en = true → s.part.Quiet → s.part.placed = true ∨ s.part.ready .freeze = true →
    s.part.sampler.waiting = w :: rest → w.req = .motor m id entry tag → (s.part.motor m).scheds.findReq id entry = some (sc, r) → r.channels ≠ [] →
    w.holds = r.channels.length → r.channels.length ≤ (s.part.sampler.eligibleHolds s.part.now).length →
    ∃ t sc' r', exec .freeze s = .next t ∧ t.pending = s.pending ∧ s.part.Beside t.part m ∧ t.part.up = s.part.up ∧
      (∀ (k : Nat) (ch : Fin 16) (h : HoldId), r.channels[k]? = some ch →
        (s.part.sampler.eligibleHolds s.part.now)[k]? = some h → t.part.sampler.holds.get h = .held ch w.req s.part.now) ∧
      (∀ h, h ∉ (s.part.sampler.eligibleHolds s.part.now).take r.channels.length →
        t.part.sampler.holds.get h = s.part.sampler.holds.get h) ∧
      t.part.sampler.fifo = s.part.sampler.fifo ++
        (List.zip r.channels (s.part.sampler.eligibleHolds s.part.now)).map (fun x => ⟨x.2, x.1, w.req⟩) ∧
      (∀ x, x ∈ t.part.sampler.waiting ↔ x ∈ s.part.sampler.waiting ∧ x.req ≠ w.req) ∧
      t.part.sampler.conv = some (s.part.sampler.conv.getD (later s.part.now 48)) ∧
      (t.part.motor m).scheds.findReq id entry = some (sc', r') ∧ r'.status = .frozen ∧
      r'.frozenAt = some s.part.now ∧ (r'.deferred = true ↔ s.part.now ≠ w.planned) ∧
      (t.part.motor m).samp = { (s.part.motor m).samp with
        frozen := bump (s.part.motor m).samp.frozen
        deferred := if s.part.now = w.planned then (s.part.motor m).samp.deferred else bump (s.part.motor m).samp.deferred } ∧
      t.part.motor m = { s.part.motor m with samp := (t.part.motor m).samp, scheds := (t.part.motor m).scheds }) ∧
  (∀ (s : State) (w : WaitItem) (rest : List WaitItem) (ch : Fin 16) (a b : Tick) (h : HoldId) (others : List HoldId),
    s.part.en = true → s.part.Quiet → s.part.placed = true ∨ s.part.ready .freeze = true →
    s.part.sampler.waiting = w :: rest → w.req = .bus → w.holds = 1 → s.part.sampler.busReq = .waiting ch a b →
    s.part.sampler.eligibleHolds s.part.now = h :: others →
    exec .freeze s = .next { s with part := { s.part with sampler := { s.part.sampler with
      holds := s.part.sampler.holds.set h (.held ch .bus s.part.now)
      fifo := s.part.sampler.fifo ++ [⟨h, ch, .bus⟩]
      waiting := s.part.sampler.waiting.filter fun x => x.req ≠ .bus
      conv := some (s.part.sampler.conv.getD (later s.part.now 48))
      busReq := .frozen
      busFrozen := bump s.part.sampler.busFrozen } } }) ∧
  (∀ (s : State) (m : Slot) (id : Nat) (entry : Fin 6) (tag : Byte) (w : WaitItem) (rest : List WaitItem) (sc : Schedule)
      (r : Request), s.part.en = true → s.part.Quiet → s.part.Fits → s.part.sampler.waiting = w :: rest →
    w.req = .motor m id entry tag → (s.part.motor m).scheds.findReq id entry = some (sc, r) → r.channels ≠ [] →
    w.holds = r.channels.length → r.channels.length ≤ (s.part.sampler.eligibleHolds s.part.now).length →
    -- a cycle end is due, whose scrubber will find a word of the RUNNING motor uncorrectable; nothing else is left to place
    s.part.tb.endDue = true → (∀ e ∈ placers, e ≠ .masterCycleEnd → s.part.delay e ≠ some 0) →
    (s.part.motor m).slot.state = .running → s.part.store.scrubPos ∈ (RecordId.profile m).positions →
    (s.part.store.word s.part.store.scrubPos).valid = true →
    (s.part.store.word s.part.store.scrubPos).broken s.part.store.scrubPos = true →
    (∀ i : Fin 82, i = 1 ∨ i = 2 → (s.part.store.word i).valid = true → (s.part.store.word i).broken i = false) →
    field (s.part.store.word 3).fields 1 ≠ 0 →
    ∃ t u r', exec .freeze s = .next t ∧ exec .masterCycleEnd t = .next u ∧
      t.part.TrippedBy u.part m ⟨.table, (s.part.motor m).lastPeriod, (s.part.store.scrubPos.val : Nat), none⟩ ∧
      ((u.part.motor m).scheds.findReq id entry).map (·.2) = some r' ∧ r'.status = .frozen ∧
      r'.frozenAt = some s.part.now ∧ r'.stayed = false ∧ u.part.sampler.fifo = t.part.sampler.fifo ∧
      u.part.sampler.holds = t.part.sampler.holds)

/-- DEADLINE (R116, R117, R122): a request still waiting at its latest instant is MISSED; before a step of that instant that
cancels it, too, where `Part.ready` lets it (log 31). -/
def Obligations.DeadlineMissesTheRequest : Prop :=
  (∀ (s : State) (m : Slot) (id : Nat) (entry : Fin 6) (tag : Byte) (w : WaitItem), s.part.en = true →
    (s.part.placed = true ∧ s.part.sampler.servable s.part.now = false) ∨ s.part.ready (.deadline (.motor m entry)) = true →
    s.part.sampler.waiter (.motor m entry) = some w → w.req = .motor m id entry tag → w.latest = s.part.now →
    ∃ t, exec (.deadline (.motor m entry)) s = .next t ∧ t.pending = s.pending ∧
      t.part.sampler = { s.part.sampler with waiting := s.part.sampler.waiting.filter fun x => x.req ≠ w.req } ∧
      (t.part.motor m).samp = { (s.part.motor m).samp with missedDeadline := bump (s.part.motor m).samp.missedDeadline } ∧
      (∀ sc ∈ (t.part.motor m).scheds.latest.toList ++ (t.part.motor m).scheds.older, sc.id = id →
        ∀ r ∈ sc.reqs, r.entry = entry → r.status = .missed) ∧
      (t.part.motor m).slot = (s.part.motor m).slot ∧ (t.part.motor m).gates = (s.part.motor m).gates ∧
      (s.part.Quiet → s.part.Beside t.part m)) ∧
  (∀ (s : State) (w : WaitItem), s.part.en = true → s.part.Quiet →
    (s.part.placed = true ∧ s.part.sampler.servable s.part.now = false) ∨ s.part.ready (.deadline .bus) = true →
    s.part.sampler.waiter .bus = some w → w.req = .bus →
    w.latest = s.part.now →
    exec (.deadline .bus) s = .next { s with part := { s.part with sampler := { s.part.sampler with
      waiting := s.part.sampler.waiting.filter fun x => x.req ≠ .bus
      busReq := .absent
      busMissed := bump s.part.sampler.busMissed } } })

/-- CONVERSION_COMPLETE (R112, R118): in every state the head leaves the FIFO, its hold is FREE from now and the next
conversion ends 48 ticks on. A request with codes still to come takes this one and nothing else happens to the motors. -/
def Obligations.ConversionFreesTheHold : Prop :=
  ∀ (s : State) (code : Code) (e : FifoEntry) (rest : List FifoEntry), s.part.en = true →
    s.part.sampler.conv = some s.part.now → s.part.sampler.fifo = e :: rest →
    ∃ t, exec (.conversionComplete code) s = .next t ∧ t.pending = s.pending ∧ t.part.tb = s.part.tb ∧
      t.part.sampler.fifo = rest ∧ t.part.sampler.holds = s.part.sampler.holds.set e.hold (.free s.part.now false) ∧
      t.part.sampler.conv = (if rest = [] then none else some (later s.part.now 48)) ∧
      t.part.sampler.conversions = bump s.part.sampler.conversions ∧
      t.part.sampler.rails = (if code.toNat = 0 ∨ code.toNat = 4095 then bump s.part.sampler.rails else s.part.sampler.rails) ∧
      ∀ m id entry tag sc r, s.part.Quiet → e.req = .motor m id entry tag →
        (s.part.motor m).scheds.findReq id entry = some (sc, r) → r.codes.length + 1 ≠ r.channels.length →
        s.part.Beside t.part m ∧ t.part.up = s.part.up ∧
        t.part.motor m = { s.part.motor m with scheds := (t.part.motor m).scheds } ∧
        ((t.part.motor m).scheds.findReq id entry).map (fun x => x.2) = some { r with codes := r.codes ++ [code] }

/-- R107, R118, R141, R143: the first current of a completed request beyond I_LIMIT trips the motor, and none beyond it does
not: the request is DONE with its values, and with the last request of its schedule the sample frame joins the queue
(R120, R127). R119: a request whose motor has left RUNNING since its freeze is DONE and reported like any other; its currents
are not checked and no crossing is sought in it. What a BLOCK_ON request's voltages do beside is CrossingsAreActedOn. -/
def Obligations.CurrentBeyondLimitTrips : Prop :=
  ∀ (s : State) (code : Code) (e : FifoEntry) (rest : List FifoEntry) (m : Slot) (id : Nat) (entry : Fin 6) (tag : Byte)
      (sc : Schedule) (r : Request), s.part.en = true → s.part.Quiet → s.part.sampler.conv = some s.part.now →
    s.part.sampler.fifo = e :: rest → e.req = .motor m id entry tag →
    (s.part.motor m).scheds.findReq id entry = some (sc, r) → r.codes.length + 1 = r.channels.length →
    let q := s.part.motor m
    let limit := field (s.part.store.profileWord m 8) 0
    let done := { r with codes := r.codes ++ [code], readings := r.form (r.codes ++ [code]), status := .done }
    let completed := fun (x : Schedule) =>
      if x.id = id then { x with reqs := x.reqs.map fun y => if y.entry = entry then done else y } else x
    -- the motor with the request completed and nothing else done
    let resolved : Motor := { q with scheds := ⟨q.scheds.latest.map completed, q.scheds.older.map completed⟩ }
    let ends := fun (t : State) => exec (.conversionComplete code) s = .next t ∧ t.pending = s.pending ∧ s.part.Beside t.part m
    -- the request is DONE in its schedule, which is handed on, its frame built, when that was its last
    let reported := fun (t : State) => t.part.motor m = { q with scheds := (t.part.motor m).scheds } ∧
      ((q.scheds.latest.toList ++ q.scheds.older).filter (fun x => x.id == id) = [sc] →
        let whole := sc.handed = false ∧ ∀ x ∈ (completed sc).reqs, x.status ≠ .waiting ∧ x.status ≠ .frozen
        (whole → t.part.up = s.part.up.join (.sample ((completed sc).frame m))) ∧ (¬whole → t.part.up = s.part.up) ∧
        (q.scheds.latest = some sc →
          (t.part.motor m).scheds.latest = some { completed sc with handed := sc.handed || whole }) ∧
        (q.scheds.latest ≠ some sc → ¬whole → completed sc ∈ (t.part.motor m).scheds.older))
    (r.stayed = true → q.slot.state = .running → s.part.store.Readable ((RecordId.profile m).pos 8) →
      (s.part.Fits → ∀ v ph front back, done.currents = front ++ (v, ph) :: back → (∀ x ∈ front, x.1.natAbs ≤ limit) →
        limit < v.natAbs → ∃ t, ends t ∧
          (s.part.modMotor m fun _ => resolved).TrippedBy t.part m ⟨.current, some sc.period, v, ph⟩ ∧
          (t.part.motor m).prot.currentTrips = bump q.prot.currentTrips) ∧
      (r.kind ≠ .blockOn → (∀ x ∈ done.currents, x.1.natAbs ≤ limit) → ∃ t, ends t ∧ reported t)) ∧
    (r.stayed = false → ∃ t, ends t ∧ reported t ∧ t.part.store = s.part.store)

/-- BUS_REQUEST_PLACE (R121): the read of BUS_POS at position 0, the placement, and a CONFIG that is not valid. -/
def Obligations.BusRequestIsPlaced : Prop :=
  ∀ s : State, s.part.en = true → s.part.Quiet → s.part.tb.endDue = false →
    let pos := field (s.part.store.word 3).fields 1
    let request := fun (t : State) =>
      t.part.sampler.busPlan = .done ∧
      t.part.sampler.busReq = .waiting (Fin.ofNat 16 (field (s.part.store.word 3).fields 0)) s.part.now
        (later s.part.now (field (s.part.store.word 4).fields 0)) ∧
      JoinedAt
        { req := .bus, holds := 1, planned := s.part.now, latest := later s.part.now (field (s.part.store.word 4).fields 0)
          motorPriority := 0, priority := 0 }
        s.part.sampler.waiting t.part.sampler.waiting ∧
      t.part.sampler.highWater = max s.part.sampler.highWater (s.part.sampler.waiting.length + 1) ∧
      t.part.sampler.busMissed = s.part.sampler.busMissed ∧ t.part.sampler.holds = s.part.sampler.holds ∧
      t.part.sampler.fifo = s.part.sampler.fifo
    let rest := fun (t : State) => t.pending = s.pending ∧ t.part.motors = s.part.motors ∧ t.part.tb = s.part.tb ∧
      t.part.bus = s.part.bus ∧ t.part.link = s.part.link ∧ t.part.up = s.part.up ∧ s.part.store.Corrected t.part.store
    (s.part.sampler.busPlan = .unread → s.part.store.recordValid .config = true → s.part.store.ReadableAll [3, 4] →
      pos = s.part.tb.pos → ∃ t, exec .busRequestPlace s = .next t ∧ rest t ∧ request t) ∧
    (s.part.sampler.busPlan = .unread → s.part.store.recordValid .config = true → s.part.store.ReadableAll [3, 4] →
      pos ≠ s.part.tb.pos → ∃ t, exec .busRequestPlace s = .next t ∧ rest t ∧
        t.part.sampler = { s.part.sampler with busPlan := .at pos }) ∧
    (s.part.sampler.busPlan = .unread → s.part.store.recordValid .config = false → (s.part.store.word 3).broken 3 = false →
      ∃ t, exec .busRequestPlace s = .next t ∧ rest t ∧
        t.part.sampler = { s.part.sampler with busPlan := .done, busMissed := bump s.part.sampler.busMissed }) ∧
    (s.part.sampler.busPlan = .at s.part.tb.pos → s.part.tb.pos < s.part.tb.len → s.part.store.recordValid .config = true →
      s.part.store.ReadableAll [3, 4] → ∃ t, exec .busRequestPlace s = .next t ∧ rest t ∧ request t)

/-- R122, R148, R149: a bus code moves the UV and OV states by the table of R148 and, with a mode of STOP, stops every driven
motor; BUS_UV comes first. Its BUS_CROSS notices join UV before OV, with the SAFE_STOP notices of R27 among them in any order
(R131). A code that finds CONFIG not valid is kept and not judged. -/
def Obligations.BusCodeJudged : Prop :=
  -- the bus request is absent, unless a later one waits or is frozen already
  let freed := fun (s t : State) (rest : List FifoEntry) =>
    (∀ ch a b, s.part.sampler.busReq = .waiting ch a b → t.part.sampler.busReq = .waiting ch a b) ∧
    ((∀ ch a b, s.part.sampler.busReq ≠ .waiting ch a b) → (∀ f ∈ rest, f.req ≠ .bus) → t.part.sampler.busReq = .absent)
  (∀ (s : State) (code : Code) (e : FifoEntry) (rest : List FifoEntry), s.part.en = true → s.part.Quiet →
    s.part.sampler.conv = some s.part.now → s.part.sampler.fifo = e :: rest → e.req = .bus →
    s.part.store.recordValid .config = true → s.part.store.ReadableAll [5, 6] →
    let uv := field (s.part.store.word 5).fields 0
    let ov := field (s.part.store.word 5).fields 1
    let hyst := field (s.part.store.word 6).fields 0
    let below := if s.part.bus.uvBelow then decide (code.toNat ≤ uv + hyst) else decide (code.toNat < uv)
    let high := if s.part.bus.ovHigh then decide (ov ≤ code.toNat + hyst) else decide (ov < code.toNat)
    let stopUv := s.part.bus.uvBelow = false ∧ below = true ∧ field (s.part.store.word 6).fields 1 = 1
    let stopOv := s.part.bus.ovHigh = false ∧ high = true ∧ field (s.part.store.word 6).fields 2 = 1
    ∃ t, exec (.conversionComplete code) s = .next t ∧ t.part.sampler.lastCode = some code ∧ freed s t rest ∧
      t.part.bus.uvBelow = below ∧ t.part.bus.ovHigh = high ∧
      t.part.bus.uvCross = (if below = s.part.bus.uvBelow then s.part.bus.uvCross else bump s.part.bus.uvCross) ∧
      t.part.bus.ovCross = (if high = s.part.bus.ovHigh then s.part.bus.ovCross else bump s.part.bus.ovCross) ∧
      t.part.tb = s.part.tb ∧ t.part.link = s.part.link ∧ s.part.store.Corrected t.part.store ∧
      ((∀ m, (s.part.motor m).NothingInFlight) → s.part.up.queue.length + 5 ≤ 8 →
        let crosses :=
          (if below = s.part.bus.uvBelow then [] else [Notice.busCross (if below then .toBelow else .toAbove) code]) ++
          (if high = s.part.bus.ovHigh then [] else [Notice.busCross (if high then .toHigh else .toNormal) code])
        let stops := fun (cause : StopCause) => s.part.drivenMotors.map fun m => Notice.safeStop m cause
        ∃ l : List Notice,
          (stopUv → l.Perm (crosses ++ stops .busUv)) ∧ (¬stopUv → stopOv → l.Perm (crosses ++ stops .busOv)) ∧
          (¬stopUv → ¬stopOv → l = crosses) ∧ crosses.Sublist l ∧
          t.part.up = l.foldl (fun u n => u.append (.notice n)) s.part.up) ∧
      ∀ m,
        ((s.part.motor m).slot.state = .running ∨ (s.part.motor m).slot.state = .startPending →
          (stopUv → s.part.SafeStopped t.part m .busUv) ∧ (¬stopUv → stopOv → s.part.SafeStopped t.part m .busOv) ∧
          (¬stopUv → ¬stopOv → t.part.motor m = s.part.motor m)) ∧
        ((s.part.motor m).slot.state ≠ .running → (s.part.motor m).slot.state ≠ .startPending →
          t.part.motor m = s.part.motor m)) ∧
  (∀ (s : State) (code : Code) (e : FifoEntry) (rest : List FifoEntry), s.part.en = true → s.part.Quiet →
    s.part.sampler.conv = some s.part.now → s.part.sampler.fifo = e :: rest → e.req = .bus →
    s.part.store.recordValid .config = false →
    (∀ pos : Fin 82, pos = 5 ∨ pos = 6 → (s.part.store.word pos).valid = true → (s.part.store.word pos).broken pos = false) →
    ∃ t, exec (.conversionComplete code) s = .next t ∧ t.pending = s.pending ∧ t.part.sampler.lastCode = some code ∧
      freed s t rest ∧ t.part.bus = s.part.bus ∧ t.part.motors = s.part.motors ∧ t.part.up = s.part.up ∧ t.part.link = s.part.link ∧
      t.part.tb = s.part.tb ∧ s.part.store.Corrected t.part.store)

/-! ## Comparator inputs -/

/-- OC_PIN_FALL and OC_PIN_RISE (R140, R31, R143, R144): the level follows; a falling edge is counted and is judged in the
motor's state: a first trip with ALL_OFF in RUNNING, START_PENDING and SAFE_STOP, a lockout in TRIPPED, and nothing more in
OFF, READY and LOCKED_OUT. That OC_PIN_FALL changes nothing where the input is LOW already is the model's own (log 21). -/
def Obligations.OcPinEdgesAreJudged : Prop :=
  ∀ (s : State) (m : Slot), s.part.en = true →
    let q := s.part.motor m
    let prot := { q.prot with pinHigh := false, edges := bump q.prot.edges }
    exec (.ocPinRise m) s = .next { s with part := s.part.modMotor m fun q => { q with prot := { q.prot with pinHigh := true } } } ∧
    (q.prot.pinHigh = false → exec (.ocPinFall m) s = .next s) ∧
    (s.part.Quiet → q.prot.pinHigh = true → ∃ t, exec (.ocPinFall m) s = .next t ∧ t.pending = s.pending ∧
      s.part.Beside t.part m ∧
      (q.slot.state = .running ∨ q.slot.state = .startPending →
        s.part.TrippedBy t.part m ⟨.ocPin, if q.slot.state = .running then q.lastPeriod else none, 0, none⟩ ∧
        (t.part.motor m).prot = { prot with ocTrips := bump q.prot.ocTrips }) ∧
      (q.slot.state = .safeStop →
        let record : FaultRecord := ⟨.ocPin, s.part.now, none, 0, none, none⟩
        t.part.motor m = { q with
          slot := { q.slot with state := .tripped, stopCause := none, fault := some record }
          gates := (t.part.motor m).gates
          prot := { prot with ocTrips := bump q.prot.ocTrips } } ∧
        (t.part.motor m).gates.AllOff ∧ t.part.up.slots.get m = some record ∧ t.part.faultOut = true) ∧
      (∀ r, q.slot.state = .tripped → q.slot.fault = some r →
        let record := { r with second := some ⟨.ocPin, s.part.now, 0, none⟩ }
        t.part.motor m = { q with
          slot := { q.slot with state := .lockedOut, fault := some record }
          gates := (t.part.motor m).gates
          prot := { prot with ocTrips := bump q.prot.ocTrips, lockouts := bump q.prot.lockouts } } ∧
        (t.part.motor m).gates.AllOff ∧ t.part.up.slots.get m = some record ∧ t.part.faultOut = true) ∧
      (q.slot.state = .off ∨ q.slot.state = .ready ∨ q.slot.state = .lockedOut →
        t.part = s.part.modMotor m fun q => { q with prot := prot }))

/-! ## The link -/

/-- TRANSFER_START (R133, R134, R135, R173): a fault report first, the earliest trip of several and then the lowest slot
number; else the head of the general queue; else IDLE. The frame's bytes are fixed here. LDO (R162): LOW before the transfer,
then the 288 bits of the frame, each byte most significant bit first, then LOW; not driven while EN is low. -/
def Obligations.TransferStartFixesTheFrame : Prop :=
  (∀ (p : Part) (k : Nat), (p.en = false → p.ldo k = none) ∧
    (p.en = true → p.up.transfer = .absent ∨ p.up.transfer = .ignored → p.ldo k = some false)) ∧
  ∀ s : State, s.part.en = true → s.part.Quiet → s.part.up.transfer = .absent → (s.part.store.word 7).broken 7 = false →
    let own := if s.part.store.recordValid .config then byte (field (s.part.store.word 7).fields 0) else 0#8
    let starts := fun (c : Carried) (kind : Nat) (stream : Byte) (body : List Byte) =>
      let bytes := sealFrame ([byte kind, stream] ++ bytes16 s.part.summary) body
      ∃ (st : Store) (p : Part), s.part.store.Corrected st ∧ exec .transferStart s = .next { s with part := p } ∧
        p = { s.part with store := st, up := { s.part.up with transfer := .active c bytes false false } } ∧
        (∀ (i : Nat) (b : Fin 8), i < 36 → p.ldo (8 * i + b.val) = some ((bytes.getD i 0#8).getLsbD (7 - b.val))) ∧
        ∀ k, 288 ≤ k → p.ldo k = some false
    (∀ m r, s.part.up.slots.get m = some r →
      (∀ k r', s.part.up.slots.get k = some r' → k ≠ m →
        atOrAfter r'.instant r.instant = true ∧ (r'.instant = r.instant → m.toNat < k.toNat)) →
      starts (.fault m) 2 own (r.body m (s.part.motor m).slot.state)) ∧
    ((∀ m, s.part.up.slots.get m = none) →
      (∀ f rest fr, s.part.up.queue = f :: rest → f.body = .sample fr → starts (.queued f.id) 1 fr.stream fr.body) ∧
      (∀ f rest r, s.part.up.queue = f :: rest → f.body = .reply r → starts (.queued f.id) 3 own r.body) ∧
      (∀ f rest n, s.part.up.queue = f :: rest → f.body = .notice n → starts (.queued f.id) 4 own n.body) ∧
      (s.part.up.queue = [] → starts .idle 0 own []))

/-- R127, R130, R131: a frame joins at the tail of the general queue; at a full queue the oldest SAMPLE frame that no
transfer carries gives way to it, and where there is none the newcomer is lost, each loss counted and marked by the dropped
flag. R106, R120, R128, R129: what the sample frame of a schedule holds. -/
def Obligations.FramesJoinTheGeneralQueue : Prop :=
  (∀ (u : Upstream) (b : FrameBody), u.Numbered →
    let c : Upstream := match b with
      | .sample f =>
        { u with
          built := min (u.built + 1) 65535, builtBy := u.builtBy.set f.motor (min (u.builtBy.get f.motor + 1) 65535) }
      | .reply _ | .notice _ => u
    let givesWay := fun (f : QFrame) => f.body.kind = 1 ∧ u.transfer.queuedId ≠ some f.id
    let marked := match u.transfer with
      | .active carried bytes _ changed => Transfer.active carried bytes true changed
      | .absent => .absent
      | .ignored => .ignored
    (u.queue.length < 8 → u.join b = { c with queue := u.queue ++ [⟨u.nextId, b⟩], nextId := u.nextId + 1 }) ∧
    (8 ≤ u.queue.length →
      (∀ front f back, u.queue = front ++ f :: back → givesWay f → (∀ g ∈ front, ¬givesWay g) →
        u.join b = { c with
          queue := front ++ back ++ [⟨u.nextId, b⟩], nextId := u.nextId + 1, displaced := bump u.displaced
          lost := bump u.lost, dropped := true, transfer := marked }) ∧
      ((∀ f ∈ u.queue, ¬givesWay f) → u.join b = { c with
        refused := if b.kind = 1 then bump u.refused else u.refused
        lost := if b.kind = 1 then bump u.lost else u.lost
        replyLost := if b.kind = 3 then bump u.replyLost else u.replyLost
        noticeLost := if b.kind = 4 then bump u.noticeLost else u.noticeLost
        dropped := true, transfer := marked }))) ∧
  (∀ (sc : Schedule) (m : Slot),
    let f := sc.frame m
    f.motor = m ∧ f.period = sc.period ∧ f.stream = sc.stream ∧ f.tag = sc.tag ∧ f.outcome = sc.outcome ∧
      f.overrun = sc.overrun ∧ f.stale = sc.stale ∧ f.valley = sc.valley ∧
      (∀ pulse a b, sc.drive = .sine pulse a b → f.step = none ∧ f.crossing = false ∧ f.commutated = false ∧
        (f.shift = true ↔ a ≠ 0 ∨ b ≠ 0)) ∧
      (∀ step u comms crossing, sc.drive = .block step u comms crossing → f.step = some step ∧ f.crossing = crossing ∧
        (f.commutated = true ↔ comms ≠ []) ∧ f.shift = false) ∧
      f.entries = (sc.reqs.map Request.entries).flatten) ∧
  (∀ r : Request,
    (r.status = .done → r.phases.length = r.readings.length → r.entries.length = r.phases.length ∧
      ∀ (k : Nat) (ph : Option Phase) (v : Reading), r.phases[k]? = some ph → r.readings[k]? = some v → r.entries[k]? = some
        ({ tag := r.tag, phase := ph, missed := false, unmeasurable := false, deferred := r.deferred, rail := v.rail,
           reconstructed := v.reconstructed, value := v.value } : ResultEntry)) ∧
    (r.status = .missed ∨ r.status = .unmeasurable → r.entries = r.phases.map fun ph =>
      ({ tag := r.tag, phase := ph, missed := decide (r.status = .missed), unmeasurable := decide (r.status = .unmeasurable),
         deferred := false, rail := false, reconstructed := false, value := 0 } : ResultEntry)))

/-- IDLE_FRAME (R163, R164, R166): the good frame lowers the error count and does nothing else; with it the transfer ends
and its upstream frame is consumed (R136, R137). That a frame end with no transfer in progress leaves the upstream side as it
is is the model's own (log 1). -/
def Obligations.IdleFrameEndsTheTransfer : Prop :=
  ∀ s : State, s.part.en = true → s.part.up.transfer ≠ .ignored → s.part.link.errors < 256 →
    let u := s.part.up
    let v := s.part.transferEnded.up
    exec .idleFrame s = .next { s with part := { s.part.transferEnded with
      link := { s.part.link with good := bump s.part.link.good, errors := s.part.link.errors - 1 } } } ∧
    (u.transfer = .absent → v = u) ∧
    ∀ c bytes loss changed, u.transfer = .active c bytes loss changed →
      (∀ id f, c = .queued id → u.queue.find? (fun g => g.id == id) = some f →
        v = { u with
          transfer := .absent
          queue := u.queue.filter fun g => g.id != id
          sent := if f.body.kind = 1 then bump u.sent else u.sent
          replySent := if f.body.kind = 3 then bump u.replySent else u.replySent
          noticeSent := if f.body.kind = 4 then bump u.noticeSent else u.noticeSent }) ∧
      (∀ id, c = .queued id → u.queue.find? (fun g => g.id == id) = none → v = { u with transfer := .absent }) ∧
      (∀ m, c = .fault m → u.slots.get m = none → v = { u with transfer := .absent }) ∧
      (∀ m r, c = .fault m → u.slots.get m = some r →
        v = { u with
          transfer := .absent, faultSent := bump u.faultSent
          slots := if changed then u.slots else u.slots.set m none }) ∧
      (c = .idle → v = { u with transfer := .absent, idleSent := bump u.idleSent, dropped := u.dropped && loss })

/-- SETPOINT (R166, R38, R39): the ACCEPT record of lowest index that matches gives the destination; a record for a motor
joins its queue, overruns it, or is discarded by the motor's state. R158: an ACCEPT word found uncorrectable on the way is
made invalid, with its notice, and its entry counts as disabled. -/
def Obligations.SetpointIsRouted : Prop :=
  ∀ (s : State) (stream : Byte) (header : BitVec 16) (tag : Byte) (applyAt : Option Byte) (du dv dw : BitVec 16),
    s.part.Serving 0 →
    let w := fun (j : Fin 8) => s.part.store.word ((RecordId.accept j).pos 0)
    let whole := fun (j : Fin 8) => (w j).valid = true → (w j).broken ((RecordId.accept j).pos 0) = false
    let hits := fun (j : Fin 8) => (w j).valid = true ∧ field (w j).fields 0 ≠ 0 ∧
      stream &&& BitVec.ofNat 8 (field (w j).fields 2) =
        BitVec.ofNat 8 (field (w j).fields 1) &&& BitVec.ofNat 8 (field (w j).fields 2)
    let taken := fun (l : Link) (motors : Triple Motor) =>
      ∃ st, s.part.store.Corrected st ∧ exec (.setpoint stream header tag applyAt du dv dw) s =
        .next { s with part := { s.part.transferEnded with store := st, link := l, motors := motors } }
    let l := s.part.link.took
    let r : SetRec := ⟨tag, applyAt, ⟨du, dv, dw⟩⟩
    (∀ i, hits i → (∀ j, j ≤ i → whole j) → (∀ j, j < i → ¬hits j) →
      (∀ m : Slot, field (w i).fields 3 = m.toNat →
        let q := s.part.motor m
        let joins := q.slot.state = .ready ∨ q.slot.state = .startPending ∨ q.slot.state = .running
        taken { l with routed := bump l.routed } (s.part.motors.set m { q with setq :=
          if joins ∧ q.setq.recs.length < 3 then
            { q.setq with recs := q.setq.recs ++ [r], accepted := bump q.setq.accepted }
          else if joins then { q.setq with overrunFlag := true, overruns := bump q.setq.overruns }
          else { q.setq with stateDiscards := bump q.setq.stateDiscards } })) ∧
      (field (w i).fields 3 = 3 → taken { l with droppedBy := bump l.droppedBy } s.part.motors)) ∧
    ((∀ j, whole j ∧ ¬hits j) →
      taken { l with unmatchedCount := bump l.unmatchedCount, unmatched := some ((1#8 ++ stream) ++ header) } s.part.motors) ∧
    -- a word found uncorrectable counts as a disabled entry; the entries up to the one that matches are read
    (s.part.Quiet → ∀ found : Option (Fin 8),
      (∀ i, found = some i → hits i ∧ whole i ∧ ∀ j, j < i → ¬hits j ∨ ¬whole j) →
      (found = none → ∀ j, ¬hits j ∨ ¬whole j) →
      let routed := fun (m : Slot) (t : State) => t.part.link = { l with routed := bump l.routed } ∧
        ∀ k, t.part.motor k = if k = m then (s.part.motor k).takeSetpoint r else s.part.motor k
      ∃ t, exec (.setpoint stream header tag applyAt du dv dw) s = .next t ∧ t.pending = s.pending ∧
        s.part.FoundBroken t.part
          ((([0, 1, 2, 3, 4, 5, 6, 7] : List (Fin 8)).filter fun j => found.all fun i => decide (j ≤ i)).map fun j =>
            (RecordId.accept j).pos 0) [] ∧
        (∀ i, found = some i →
          (∀ m : Slot, field (w i).fields 3 = m.toNat → routed m t) ∧
          (field (w i).fields 3 = 3 →
            t.part.link = { l with droppedBy := bump l.droppedBy } ∧ t.part.motors = s.part.motors)) ∧
        (found = none → t.part.motors = s.part.motors ∧
          t.part.link = { l with unmatchedCount := bump l.unmatchedCount, unmatched := some ((1#8 ++ stream) ++ header) }))

/-- BAD_FRAME and ABORTED_TRANSFER (R162, R163, R164, R136): short of a link loss, the count of its kind and 8 on the error
count; in LOST the recovery run starts over. A bad frame's upstream frame is consumed, an aborted transfer's is not. The bad
frame that brings the error count to 256 makes the link LOST, and every RUNNING or START_PENDING motor enters SAFE_STOP with
cause LINK (R27, R28), their notices in any order (R131). That an ABORTED_TRANSFER with no transfer in progress is counted,
and raises no unconsumed count, is the model's own (log 1). -/
def Obligations.BadFramesCountAgainstTheLink : Prop :=
  (∀ s : State, s.part.en = true → s.part.Quiet → s.part.up.transfer ≠ .ignored →
    s.part.link.errors = 256 ∨ s.part.link.errors + 8 < 256 →
    let l := s.part.link
    let raised := if l.errors = 256 then { l with recovery := 0 }
      else { l with
        errors := l.errors + 8
        degradedEntries := if l.errors < 128 ∧ 128 ≤ l.errors + 8 then bump l.degradedEntries else l.degradedEntries }
    exec (.badFrame .check) s =
      .next { s with part := { s.part.transferEnded with link := { raised with badCheck := bump l.badCheck } } } ∧
    exec (.badFrame .kind) s =
      .next { s with part := { s.part.transferEnded with link := { raised with unknownKind := bump l.unknownKind } } } ∧
    exec .abortedTransfer s = .next { s with part := { s.part with
      link := { raised with aborted := bump l.aborted }
      free := s.part.transferEnded.free
      up := if s.part.up.transfer = .absent then s.part.up
        else { s.part.up with transfer := .absent, unconsumed := bump s.part.up.unconsumed } } }) ∧
  (∀ (s : State) (c : Instr), s.part.en = true → s.part.Quiet → s.part.up.transfer ≠ .ignored → s.part.link.errors < 256 →
    256 ≤ s.part.link.errors + 8 → c = .badFrame .check ∨ c = .badFrame .kind ∨ c = .abortedTransfer →
    ∃ t, exec c s = .next t ∧ t.pending = s.pending ∧ t.part.link.errors = 256 ∧ t.part.link.state = .lost ∧
      t.part.link.recovery = 0 ∧ t.part.link.lostEntries = bump s.part.link.lostEntries ∧
      t.part.link.degradedEntries = s.part.link.degradedEntries ∧ t.part.tb = s.part.tb ∧ t.part.store = s.part.store ∧
      t.part.bus = s.part.bus ∧ t.part.sampler.holds = s.part.sampler.holds ∧ t.part.sampler.fifo = s.part.sampler.fifo ∧
      ((∀ m, (s.part.motor m).NothingInFlight) → s.part.up.Numbered → s.part.up.queue.length + 3 ≤ 8 →
        let before := if c = .abortedTransfer then s.part.up else s.part.transferEnded.up
        ∃ l : List Notice, l.Perm (s.part.drivenMotors.map fun m => .safeStop m .link) ∧
          t.part.up.queue.map (·.body) = before.queue.map (·.body) ++ l.map .notice) ∧
      ∀ m,
        ((s.part.motor m).slot.state = .running ∨ (s.part.motor m).slot.state = .startPending →
          s.part.SafeStopped t.part m .link) ∧
        ((s.part.motor m).slot.state ≠ .running → (s.part.motor m).slot.state ≠ .startPending →
          t.part.motor m = s.part.motor m))

/-- R165: while the link is LOST every good frame, of whatever kind, is counted and not acted on; the 64th in a row makes
the link ACTIVE. -/
def Obligations.LostLinkIgnoresGoodFrames : Prop :=
  ∀ (s : State) (c : Instr), s.part.en = true → s.part.up.transfer ≠ .ignored → s.part.link.errors = 256 →
    c.isGoodFrame = true →
    let l := { s.part.link with good := bump s.part.link.good, ignored := bump s.part.link.ignored }
    exec c s = .next { s with part := { s.part.transferEnded with link :=
      if l.recovery + 1 = 64 then { l with errors := 0, recovery := 0 } else { l with recovery := l.recovery + 1 } } }

/-! ## Motor commands -/

/-- R19, R164, R167: what is refused changes nothing but the link's counts and the reply: a motor number outside 0 to 2,
a gated request in DEGRADED, any command in LOCKED_OUT, and a command in a state that its table row refuses. That the reply to
a motor number outside 0 to 2 has no data is the model's reading (log 24), and which index names a PROFILE or PLAN record
is too (log 8). -/
def Obligations.RefusedCommandsChangeNothing : Prop :=
  (∀ (s : State) (c : Instr) (tag : Byte) (n : BitVec 4), s.part.Serving 1 → c.motorCmd = some (tag, n) →
    let refused := fun (code : ReplyCode) (data : List Byte) =>
      exec c s = .next { s with part := s.part.replied ⟨tag, 3#8, code, data⟩ }
    (3 ≤ n.toNat → refused .badRequest []) ∧
    ∀ m : Slot, n.toNat = m.toNat →
      let st := (s.part.motor m).slot.state
      (c.gated = true → 128 < s.part.link.errors → refused .degraded [byte st.num]) ∧
      (c.gated = false ∨ s.part.link.errors < 128 →
        (st = .lockedOut → refused .locked [byte st.num]) ∧
        (c.refusedIn st = true → refused .refusedState [byte st.num]))) ∧
  (∀ (s : State) (tag : Byte), s.part.Serving 1 → 128 < s.part.link.errors →
    exec (.resetPart tag) s = .next { s with part := s.part.replied ⟨tag, 6#8, .degraded, []⟩ }) ∧
  (∀ (s : State) (tag : Byte) (region : BitVec 4) (segment : BitVec 2) (last : Bool) (index : Byte) (mask : BitVec 16)
      (params : List Byte) (r : RecordId), s.part.Serving 1 → 128 < s.part.link.errors →
    targetOf region segment index = some r →
    exec (.writeRecord tag region segment last index mask params) s = .next { s with part :=
      { s.part.replied ⟨tag, 2#8, .degraded, []⟩ with link := { s.part.link.served with staging := none } } })

/-- ARM in OFF (R18, R20): the three records are read; TABLE_INVALID, REFUSED_FIELD and PLAN_MISMATCH in that order; else
READY with the gate copies taken from the profile. R158: a word found uncorrectable by these reads is made invalid, with its
notice, and the answer is TABLE_INVALID (stated where no motor is RUNNING, so that none trips). -/
def Obligations.ArmTakesTheGateCopies : Prop :=
  ∀ (s : State) (tag : Byte) (n : BitVec 4) (m : Slot), s.part.Serving 1 → s.part.link.errors < 128 → n.toNat = m.toNat →
    (s.part.motor m).slot.state = .off →
    (s.part.Quiet → (∀ k, (s.part.motor k).slot.state ≠ .running) →
      (∃ pos ∈ motorRecords m, (s.part.store.word pos).valid = true ∧ (s.part.store.word pos).broken pos = true) →
      ∃ t, exec (.arm tag n) s = .next t ∧ t.pending = s.pending ∧ t.part.motors = s.part.motors ∧
        t.part.link = s.part.link.served ∧
        s.part.FoundBroken t.part (motorRecords m) [.reply ⟨tag, 3#8, .tableInvalid, [0#8]⟩]) ∧
    ((∀ pos ∈ motorRecords m, (s.part.store.word pos).valid = true → (s.part.store.word pos).broken pos = false) →
    let answers := fun (code : ReplyCode) (data : List Byte) (motors : Triple Motor) =>
      ∃ st, s.part.store.Corrected st ∧ exec (.arm tag n) s =
        .next { s with part := { s.part.replied ⟨tag, 3#8, code, data⟩ with store := st, motors := motors } }
    let q := s.part.motor m
    let w := s.part.store.profileWord m
    if ∃ pos ∈ motorRecords m, (s.part.store.word pos).valid = false then answers .tableInvalid [0#8] s.part.motors
    else if s.part.tb.p ≤ field (w 1) 0 then answers .refusedField [0#8] s.part.motors
    else if s.part.store.consistent m = false then answers .planMismatch [0#8] s.part.motors
    else answers .ok [1#8] (s.part.motors.set m { q with slot := { q.slot with
      state := .ready
      copies := some
        { dt := field (w 2) 0
          safe := if field (w 7) 3 = 0 then .allOff else .lowBrake
          trip := if field (w 7) 2 = 0 then .allOff else .lowBrake } } }))

/-- DISARM (R21, R46) and RELEASE (R30), with the states that refuse them. -/
def Obligations.DisarmAndReleaseLeaveGatesOff : Prop :=
  ∀ (s : State) (tag : Byte) (n : BitVec 4) (m : Slot), s.part.Serving 1 → n.toNat = m.toNat →
    let q := s.part.motor m
    (q.slot.state = .off → exec (.disarm tag n) s = .next { s with part := s.part.replied ⟨tag, 3#8, .ok, [0#8]⟩ }) ∧
    (q.slot.state = .ready → ∃ gates : GateStage, gates.AllOff ∧
      exec (.disarm tag n) s = .next { s with part := { s.part.replied ⟨tag, 3#8, .ok, [0#8]⟩ with
        motors := s.part.motors.set m { q with
          slot := { q.slot with state := .off, copies := none }
          setq := { q.setq with recs := [], overrunFlag := false, staleFlag := false, starved := 0 }
          pace := { q.pace with trim := 0 }
          gates := gates } } }) ∧
    (q.slot.state = .safeStop → ∃ gates : GateStage, gates.AllOff ∧
      exec (.release tag n) s = .next { s with part := { s.part.replied ⟨tag, 3#8, .ok, [1#8]⟩ with
        motors := s.part.motors.set m { q with
          slot := { q.slot with state := .ready, stopCause := none }, gates := gates } } }) ∧
    (q.slot.state = .startPending ∨ q.slot.state = .running ∨ q.slot.state = .safeStop ∨ q.slot.state = .tripped →
      exec (.disarm tag n) s = .next { s with part := s.part.replied ⟨tag, 3#8, .refusedState, [byte q.slot.state.num]⟩ }) ∧
    (q.slot.state = .off ∨ q.slot.state = .ready ∨ q.slot.state = .startPending ∨ q.slot.state = .running ∨
        q.slot.state = .tripped →
      exec (.release tag n) s = .next { s with part := s.part.replied ⟨tag, 3#8, .refusedState, [byte q.slot.state.num]⟩ })

/-- START in READY and SAFE_STOP (R22, R10, R44): TABLE_INVALID, PLAN_MISMATCH and BUS_LOW in that order; else the entry
into START_PENDING with the carrier offset, no trim and the zero setpoint. `taken` is the model's own (log 4). R158: a word
found uncorrectable by its reads is made invalid, with its notice, and the answer is TABLE_INVALID (stated where no motor is
RUNNING, so that none trips). -/
def Obligations.StartEntersStartPending : Prop :=
  ∀ (s : State) (tag : Byte) (n : BitVec 4) (m : Slot) (origin : StartOrigin), s.part.Serving 1 →
    s.part.link.errors < 128 → n.toNat = m.toNat →
    (s.part.motor m).slot.state = (match origin with | .ready => .ready | .safeStop => .safeStop) →
    (s.part.Quiet → (∀ k, (s.part.motor k).slot.state ≠ .running) →
      (∃ pos ∈ motorRecords m, (s.part.store.word pos).valid = true ∧ (s.part.store.word pos).broken pos = true) →
      ∃ t, exec (.start tag n) s = .next t ∧ t.pending = s.pending ∧ t.part.motors = s.part.motors ∧
        t.part.link = s.part.link.served ∧ s.part.FoundBroken t.part (motorRecords m)
          [.reply ⟨tag, 3#8, .tableInvalid, [byte (s.part.motor m).slot.state.num]⟩]) ∧
    ((∀ pos ∈ motorRecords m, (s.part.store.word pos).valid = true → (s.part.store.word pos).broken pos = false) →
    let q := s.part.motor m
    let refused := fun (code : ReplyCode) =>
      ∃ st, s.part.store.Corrected st ∧ exec (.start tag n) s =
        .next { s with part := { s.part.replied ⟨tag, 3#8, code, [byte q.slot.state.num]⟩ with store := st } }
    let offset := field (s.part.store.profileWord m 1) 0
    if ∃ pos ∈ motorRecords m, (s.part.store.word pos).valid = false then refused .tableInvalid
    else if s.part.store.consistent m = false then refused .planMismatch
    else if s.part.bus.uvBelow = true ∧ field (s.part.store.word 6).fields 1 = 1 then refused .busLow
    else ∃ st taken free, s.part.store.Corrected st ∧
      (taken = true → (s.part.tb.endDue = false ∧ s.part.tb.pos = offset) ∨ (s.part.tb.endDue = true ∧ offset = 0)) ∧
      exec (.start tag n) s = .next { s with part := { s.part.replied ⟨tag, 3#8, .ok, [2#8]⟩ with
        store := st
        free := free
        motors := s.part.motors.set m { q with
          slot := { q.slot with state := .startPending, stopCause := none, start := some ⟨origin, offset, taken⟩ }
          pace := { q.pace with trim := 0 }
          setq := { q.setq with applied := ⟨0#8, .const 0⟩, starved := 0 } } } })

/-- PARK (R25, R28): in RUNNING it sets the park-pending flag; in START_PENDING the motor goes back to READY at once, its
gates all off. VALLEY with the park-pending flag (R26, R28): the motor enters READY, its gates all off; no period is begun
and the setpoint queue is not examined. -/
def Obligations.ParkIsTakenAndCompletes : Prop :=
  (∀ (s : State) (tag : Byte) (n : BitVec 4) (m : Slot), s.part.Serving 0 → n.toNat = m.toNat →
    let q := s.part.motor m
    (s.part.Serving 1 → q.slot.state = .running → exec (.park tag n) s =
      .next { s with part := { s.part.replied ⟨tag, 3#8, .ok, [3#8]⟩ with
        motors := s.part.motors.set m { q with slot := { q.slot with park := true } } } }) ∧
    (q.slot.state = .startPending → ∃ t, exec (.park tag n) s = .next t ∧ t.pending = s.pending ∧ s.part.Beside t.part m ∧
      (t.part.motor m).slot = { q.slot with state := .ready, park := false, stopCause := none, start := none } ∧
      s.part.Stopped t.part m ∧ (t.part.motor m).gates.AllOff ∧ (t.part.motor m).prot = q.prot ∧
      t.part.link = s.part.link.served ∧
      (∃ frames, frames.Perm (q.lastFrames m) ∧ s.part.up.JoinedBy t.part.up (frames ++ [.reply ⟨tag, 3#8, .ok, [1#8]⟩])) ∧
      (s.part.Serving 1 → q.NothingInFlight →
        t.part.up = s.part.transferEnded.up.append (.reply ⟨tag, 3#8, .ok, [1#8]⟩)))) ∧
  (∀ (s : State) (m : Slot) (c : Carrier), s.part.en = true → s.part.Quiet → (s.part.motor m).slot.state = .running →
    (s.part.motor m).slot.park = true → (s.part.motor m).pace.carrier = some c → later c.valley c.len = s.part.now →
    ∃ t, exec (.valley m) s = .next t ∧ t.pending = s.pending ∧ s.part.Beside t.part m ∧
      (t.part.motor m).slot = { (s.part.motor m).slot with state := .ready, park := false, stopCause := none, start := none } ∧
      s.part.Stopped t.part m ∧ (t.part.motor m).gates.AllOff ∧ (t.part.motor m).setq.applied = (s.part.motor m).setq.applied ∧
      (t.part.motor m).setq.starvedValleys = (s.part.motor m).setq.starvedValleys ∧
      (t.part.motor m).scheds.latest.map (·.period) = (s.part.motor m).scheds.latest.map (·.period))

/-- HALT (R29, R27, R28): a SAFE_STOP with cause HALT in RUNNING and START_PENDING, its notice and the sample frames that it
completes ahead of the reply, the transfer's end in any place among them, at a full queue too (R131); OK with no effect in
OFF, READY and SAFE_STOP, REFUSED_STATE in TRIPPED and LOCKED in LOCKED_OUT (R19), stated where the reply finds room. -/
def Obligations.HaltStopsTheMotor : Prop :=
  ∀ (s : State) (tag : Byte) (n : BitVec 4) (m : Slot), s.part.Serving 0 → n.toNat = m.toNat →
    let q := s.part.motor m
    (q.slot.state = .running ∨ q.slot.state = .startPending → ∃ t, exec (.halt tag n) s = .next t ∧
      t.pending = s.pending ∧ s.part.Beside t.part m ∧ s.part.SafeStopped t.part m .halt ∧
      (t.part.motor m).prot = q.prot ∧ t.part.link = s.part.link.served ∧
      (∃ frames, frames.Perm (.notice (.safeStop m .halt) :: q.lastFrames m) ∧
        s.part.up.JoinedBy t.part.up (frames ++ [.reply ⟨tag, 3#8, .ok, [4#8]⟩])) ∧
      (q.NothingInFlight → s.part.up.queue.length + 2 ≤ 8 →
        t.part.up = (s.part.transferEnded.up.append (.notice (.safeStop m .halt))).append
          (.reply ⟨tag, 3#8, .ok, [4#8]⟩))) ∧
    (s.part.Serving 1 → q.slot.state = .off ∨ q.slot.state = .ready ∨ q.slot.state = .safeStop →
      exec (.halt tag n) s = .next { s with part := s.part.replied ⟨tag, 3#8, .ok, [byte q.slot.state.num]⟩ }) ∧
    (s.part.Serving 1 → q.slot.state = .tripped →
      exec (.halt tag n) s = .next { s with part := s.part.replied ⟨tag, 3#8, .refusedState, [5#8]⟩ }) ∧
    (s.part.Serving 1 → q.slot.state = .lockedOut →
      exec (.halt tag n) s = .next { s with part := s.part.replied ⟨tag, 3#8, .locked, [6#8]⟩ })

/-- ACK_FAULT in TRIPPED (R146, R145): PIN_ACTIVE while the input is LOW; else the fault record is cleared and the motor is
READY with its gate copies, or OFF without them where a record is not valid; its gates are all off. The fault output falls
with the last faulted motor. R158: a word found uncorrectable by its reads is made invalid, with its notice, and the motor is
OFF (stated where no motor is RUNNING, so that none trips). -/
def Obligations.AckFaultClearsTheRecord : Prop :=
  ∀ (s : State) (tag : Byte) (n : BitVec 4) (m : Slot), s.part.Serving 1 → n.toNat = m.toNat →
    (s.part.motor m).slot.state = .tripped →
    let q := s.part.motor m
    (q.prot.pinHigh = false →
      exec (.ackFault tag n) s = .next { s with part := s.part.replied ⟨tag, 3#8, .pinActive, [5#8]⟩ }) ∧
    (q.prot.pinHigh = true →
      (∀ pos ∈ motorRecords m, (s.part.store.word pos).valid = true → (s.part.store.word pos).broken pos = false) →
      let ok := ∀ pos ∈ motorRecords m, (s.part.store.word pos).valid = true
      ∃ (st : Store) (gates : GateStage), s.part.store.Corrected st ∧ gates.AllOff ∧
        exec (.ackFault tag n) s = .next { s with part :=
          { s.part.replied ⟨tag, 3#8, .ok, [if ok then 1#8 else 0#8]⟩ with
            store := st
            motors := s.part.motors.set m { q with
              slot := { q.slot with
                state := if ok then .ready else .off, fault := none, copies := if ok then q.slot.copies else none }
              gates := gates } } }) ∧
    (q.prot.pinHigh = true →
      (∀ pos ∈ motorRecords m, (s.part.store.word pos).valid = true → (s.part.store.word pos).broken pos = false) →
      ∃ t, exec (.ackFault tag n) s = .next t ∧
        (t.part.faultOut = true ↔
          ∃ k, k ≠ m ∧ ((s.part.motor k).slot.state = .tripped ∨ (s.part.motor k).slot.state = .lockedOut))) ∧
    (q.prot.pinHigh = true → s.part.Quiet → (∀ k, (s.part.motor k).slot.state ≠ .running) →
      (∃ pos ∈ motorRecords m, (s.part.store.word pos).valid = true ∧ (s.part.store.word pos).broken pos = true) →
      ∃ (t : State) (gates : GateStage), gates.AllOff ∧ exec (.ackFault tag n) s = .next t ∧ t.pending = s.pending ∧
        t.part.motors = s.part.motors.set m { q with
          slot := { q.slot with state := .off, fault := none, copies := none }, gates := gates } ∧
        t.part.link = s.part.link.served ∧
        s.part.FoundBroken t.part (motorRecords m) [.reply ⟨tag, 3#8, .ok, [0#8]⟩])

/-! ## Records, status and counts -/

/-- R174: a word of the store whose fields are in range comes back from its four bytes on the link. -/
def Obligations.StoreWordsTravelWhole : Prop :=
  ∀ (r : RecordId) (k : Nat) (fs : List Nat), k < r.words → fs.length = (r.specs k).length →
    wordInRange (r.specs k) fs = true → (r.linkBytes k fs).length = 4 ∧ r.readLink k (r.linkBytes k fs) = fs

/-- READ_RECORD (R160, R168): 26 bytes of reply data with the marks and the words of the segment, invalid and absent ones as
zeros; the record's words are read through the store. Byte 0 is a free value (log 14); the order of the marks is log 13; which
index names a PROFILE or PLAN record is the model's reading (log 8). -/
def Obligations.ReadRecordGivesTheSegment : Prop :=
  ∀ (s : State) (tag : Byte) (region : BitVec 4) (segment : BitVec 2) (index : Byte), s.part.Serving 1 →
    (targetOf region segment index = none →
      exec (.readRecord tag region segment index) s = .next { s with part := s.part.replied ⟨tag, 1#8, .badRequest, []⟩ }) ∧
    ∀ r, targetOf region segment index = some r →
      (∀ pos ∈ r.positions, (s.part.store.word pos).valid = true → (s.part.store.word pos).broken pos = false) →
      ∃ st data, s.part.store.Corrected st ∧ data.length = 26 ∧
        exec (.readRecord tag region segment index) s =
          .next { s with part := { s.part.replied ⟨tag, 1#8, .ok, data⟩ with store := st } } ∧
        ∀ i : Fin 6,
          let k := 6 * segment.toNat + i.val
          let w := s.part.store.word (r.pos k)
          (data.drop (2 + 4 * i.val)).take 4 =
            (if k < r.words ∧ w.valid = true then r.linkBytes k w.fields else [0#8, 0#8, 0#8, 0#8]) ∧
          ((data.getD 1 0#8).getLsbD i.val = true ↔ k < r.words ∧ w.valid = true)

/-- R157, R158, R142, R159, R160: a read that meets one disturbed bit gives the fields, writes the word back whole and
counts it; one that meets two, or the code of another position, gives no data: the valid mark is cleared, the word counted, a
TABLE_INVALID notice raised, and the RUNNING motor of a PROFILE or PLAN word trips, or every RUNNING motor for CONFIG. An
invalid word gives no data and raises nothing, but trips the RUNNING motor that its reader acts for. For any reader; for
READ_RECORD; and for the scrubber. -/
def Obligations.DisturbedWordsAreHandled : Prop :=
  let mended := fun (st : Store) (pos : Fin 82) (st' : Store) => st' = { st with
    words := st'.words, corrected := min (st.corrected + 1) 255, lastCorrected := some pos.val } ∧
    ∀ i, st'.word i = if i = pos then { st.word pos with flips := .whole } else st.word i
  let cleared := fun (st : Store) (pos : Fin 82) (st' : Store) => st' = { st with
    words := st'.words, uncorrectable := min (st.uncorrectable + 1) 255, lastUncorrectable := some pos.val } ∧
    ∀ i, st'.word i = if i = pos then { st.word pos with valid := false } else st.word i
  -- the RUNNING motors that a word concerns trip with cause TABLE; every other motor is as it was
  let trips := fun (p t : Part) (pos : Fin 82) => ∀ m : Slot,
    let hit := (p.motor m).slot.state = .running ∧
      (pos ∈ RecordId.config.positions ∨ pos ∈ (RecordId.profile m).positions ∨ pos ∈ (RecordId.plan m).positions)
    (hit → p.TrippedBy t m ⟨.table, (p.motor m).pace.carrier.map (·.period), (pos.val : Nat), none⟩ ∧
      (t.motor m).prot.tableTrips = bump (p.motor m).prot.tableTrips) ∧
    (¬hit → t.motor m = p.motor m)
  -- the region and the index within it (R173)
  let named := fun (pos : Fin 82) (region index : Nat) => (region = 0 ∧ pos.val = index ∧ index < 8) ∨
    (region = 1 ∧ pos.val = 8 + index ∧ index < 8) ∨
    (2 ≤ region ∧ region < 5 ∧ pos.val = 16 * (region - 1) + index ∧ index < 16) ∨
    (5 ≤ region ∧ region < 8 ∧ pos.val = 64 + 6 * (region - 5) + index ∧ index < 6)
  (∀ (p : Part) (pos : Fin 82),
    ((p.store.word pos).valid = false → p.readWord pos = (none, p)) ∧
    (p.store.Readable pos → (p.store.word pos).flips = .whole → p.readWord pos = (some (p.store.word pos).fields, p)) ∧
    (p.store.Readable pos → (p.store.word pos).flips = .one → ∃ st, mended p.store pos st ∧
      p.readWord pos = (some (p.store.word pos).fields, { p with store := st })) ∧
    ((p.store.word pos).valid = true → (p.store.word pos).broken pos = true → ∃ t region index,
      p.readWord pos = (none, t) ∧ cleared p.store pos t.store ∧ named pos region index ∧
      t.outbox = p.outbox ++ [.tableInvalid region index] ∧ trips p t pos ∧ t.tb = p.tb ∧ t.bus = p.bus ∧
      t.link = p.link ∧ t.up.queue = p.up.queue) ∧
    (∀ m : Slot, (p.store.word pos).valid = false → (p.motor m).slot.state = .running → ∃ t, p.readFor m pos = (none, t) ∧
      p.Beside t m ∧ t.store = p.store ∧
      p.TrippedBy t m ⟨.table, (p.motor m).pace.carrier.map (·.period), (pos.val : Nat), none⟩)) ∧
  (∀ (s : State) (tag : Byte) (region : BitVec 4) (segment : BitVec 2) (index : Byte) (r : RecordId) (pos : Fin 82),
    s.part.Serving 2 → targetOf region segment index = some r → pos ∈ r.positions → (s.part.store.word pos).valid = true →
    (∀ i ∈ r.positions, i ≠ pos → (s.part.store.word i).valid = true → (s.part.store.word i).flips = .whole ∧
      (s.part.store.word i).codePos = i.val) →
    ((s.part.store.word pos).flips = .one → (s.part.store.word pos).codePos = pos.val →
      ∃ st data, mended s.part.store pos st ∧ data.length = 26 ∧ exec (.readRecord tag region segment index) s =
        .next { s with part := { s.part.replied ⟨tag, 1#8, .ok, data⟩ with store := st } }) ∧
    ((s.part.store.word pos).broken pos = true → ∃ t data i, exec (.readRecord tag region segment index) s = .next t ∧
      cleared s.part.store pos t.part.store ∧ trips s.part t.part pos ∧ t.part.link = s.part.link.served ∧
      data.length = 26 ∧
      (∀ k : Fin 6, pos = r.pos (6 * segment.toNat + k.val) → 6 * segment.toNat + k.val < r.words →
        (data.getD 1 0#8).getLsbD k.val = false ∧
          (data.drop (2 + 4 * k.val)).take 4 = [0#8, 0#8, 0#8, 0#8]) ∧
      ((∀ m, (s.part.motor m).NothingInFlight) → named pos region.toNat i ∧
        t.part.up.queue.map (·.body) = s.part.transferEnded.up.queue.map (·.body) ++
          [.notice (.tableInvalid region.toNat i), .reply ⟨tag, 1#8, .ok, data⟩]))) ∧
  (∀ s : State, s.part.en = true → s.part.tb.endDue = true → s.part.Quiet →
    let pos := s.part.store.scrubPos
    (s.part.store.word pos).valid = true →
    (∀ i : Fin 82, i = 1 ∨ i = 2 → i ≠ pos → (s.part.store.word i).valid = true →
      (s.part.store.word i).flips = .whole ∧ (s.part.store.word i).codePos = i.val) →
    let moved := fun (st : Store) => { st with scrubPos := s.part.store.scrubPos, passes := s.part.store.passes }
    ∃ t, exec .masterCycleEnd s = .next t ∧
      ((s.part.store.word pos).flips = .one → (s.part.store.word pos).codePos = pos.val →
        mended s.part.store pos (moved t.part.store)) ∧
      ((s.part.store.word pos).broken pos = true → cleared s.part.store pos (moved t.part.store) ∧
        ∀ m : Slot, (s.part.motor m).slot.state = .running →
          (pos ∈ RecordId.config.positions ∨ pos ∈ (RecordId.profile m).positions ∨ pos ∈ (RecordId.plan m).positions) →
          s.part.TrippedBy t.part m ⟨.table, (s.part.motor m).pace.carrier.map (·.period), (pos.val : Nat), none⟩))

/-- WRITE_RECORD (R155, R156, R93, R169, R3): the staging of segments, and the checks of the last one in their order; an
accepted write stores the selected words, and a CONFIG write with another P restarts the master cycle, which misses a bus
request that waits (R122). The model's own readings: INCOMPLETE for a partial write whose only invalid words are selected (log
11), the index of a PROFILE or PLAN target (log 8), that a full-mask PLAN write reads PROFILE word 0 through the store (log 15),
what a stored value is (log 28), that all sixteen mask bits must agree (log 29), and that R156's check stands against its last
sentence: a full write with unchanged static fields is accepted, also in TRIPPED, where only words of live fields (PROFILE 6,
8, 9, 15) are invalid (log 30). -/
def Obligations.WriteRecordStoresTheWords : Prop :=
  ∀ (s : State) (tag : Byte) (region : BitVec 4) (segment : BitVec 2) (last : Bool) (index : Byte) (mask : BitVec 16)
      (params : List Byte), s.part.Serving 1 → s.part.link.errors < 128 →
    let c := Instr.writeRecord tag region segment last index mask params
    let answers := fun (code : ReplyCode) (data : List Byte) (staging : Option Staging) =>
      exec c s = .next { s with part :=
        { s.part.replied ⟨tag, 2#8, code, data⟩ with link := { s.part.link.served with staging := staging } } }
    (targetOf region segment index = none → answers .badRequest [] none) ∧
    ∀ r, targetOf region segment index = some r →
      -- the words received up to this frame: opened by segment 0, continued by the next segment of the same write
      let received := fun (words : List (Nat × List Byte)) =>
        (segment = 0#2 ∧ words = r.wordsOf 0 mask params) ∨
        (segment ≠ 0#2 ∧ ∃ st, s.part.link.staging = some st ∧ st.region = region ∧ st.index = index ∧ st.mask = mask ∧
          st.tag = tag ∧ st.next = segment.toNat ∧ words = st.words ++ r.wordsOf segment.toNat mask params)
      ((∀ words, ¬received words) → answers .badRequest [] none) ∧
      ∀ words, received words →
        (last = false → answers .ok [byte (segment.toNat + 1)]
          (some ⟨region, index, mask, tag, segment.toNat + 1, words⟩)) ∧
        ((∃ k, k < r.words ∧ mask.getLsbD k = true ∧ segment.toNat < k / 6) → last = true → answers .badRequest [] none) ∧
        ((∀ k, k < r.words → mask.getLsbD k = true → k / 6 ≤ segment.toNat) → last = true →
          -- the words that the write reads; a full mask reads none, and overwrites what cannot be corrected
          (∀ k, k < r.words → mask.getLsbD k = false → (s.part.store.word (r.pos k)).valid = true →
            (s.part.store.word (r.pos k)).broken (r.pos k) = false) →
          let full := ∀ k, k < r.words → mask.getLsbD k = true
          let refused := fun (code : ReplyCode) =>
            ∃ st, s.part.store.Corrected st ∧ exec c s = .next { s with part :=
              { s.part.replied ⟨tag, 2#8, code, []⟩ with link := { s.part.link.served with staging := none }, store := st } }
          (¬full → s.part.store.recordValid r = false → refused .incomplete) ∧
          (full ∨ s.part.store.recordValid r = true →
            let ws := (List.range r.words).map fun k =>
              if mask.getLsbD k then r.readLink k ((words.lookup k).getD []) else (s.part.store.word (r.pos k)).fields
            let stored := ∃ t, exec c s = .next t ∧ t.pending = s.pending ∧
              t.part.up = s.part.transferEnded.up.append (.reply ⟨tag, 2#8, .ok, []⟩) ∧
              t.part.link = { s.part.link.served with staging := none } ∧ t.part.motors = s.part.motors ∧
              t.part.bus = s.part.bus ∧ t.part.en = true ∧ t.part.cause = s.part.cause ∧
              (∀ k, k < r.words → (t.part.store.word (r.pos k)).valid = true ∧
                (t.part.store.word (r.pos k)).fields = ws.getD k [] ∧
                (t.part.store.word (r.pos k)).broken (r.pos k) = false) ∧
              (∀ pos, pos ∉ r.positions → (t.part.store.word pos).fields = (s.part.store.word pos).fields ∧
                (t.part.store.word pos).valid = (s.part.store.word pos).valid) ∧
              (r = .config → recField ws 0 0 ≠ s.part.tb.p →
                t.part.tb.p = recField ws 0 0 ∧ t.part.tb.len = recField ws 0 0 ∧ t.part.tb.pos = 0 ∧
                t.part.tb.run = 0 ∧ t.part.tb.lastAdj = 0 ∧ t.part.tb.capture = none ∧ t.part.tb.tick = s.part.tb.tick ∧
                -- R122: a bus request that waits is MISSED; R121: BUS_POS is to be read again
                (∀ ch a b, s.part.sampler.busReq = .waiting ch a b → t.part.sampler = { s.part.sampler with
                  waiting := s.part.sampler.waiting.filter fun x => x.req ≠ .bus
                  busReq := .absent, busMissed := bump s.part.sampler.busMissed, busPlan := .unread }) ∧
                ((∀ ch a b, s.part.sampler.busReq ≠ .waiting ch a b) →
                  t.part.sampler = { s.part.sampler with busPlan := .unread })) ∧
              (r ≠ .config ∨ recField ws 0 0 = s.part.tb.p → t.part.tb = s.part.tb ∧ t.part.sampler = s.part.sampler)
            if s.part.breaksStatic r mask ws then refused .refusedStatic
            else if r.fieldsOk s.part.tb.p ws = false then refused .refusedField
            else
              match r with
              | .plan m =>
                if 6 < planBudget (planEntries ws) then refused .planTooLarge
                else if (s.part.motor m).slot.state = .startPending ∨ (s.part.motor m).slot.state = .running then
                  s.part.store.Readable ((RecordId.profile m).pos 0) →
                    if planConsistent (driveModeOf (field (s.part.store.profileWord m 0) 0))
                        (senseOf (field (s.part.store.profileWord m 0) 1)) (planEntries ws) then stored
                    else refused .planMismatch
                else stored
              | .config | .accept _ | .profile _ => stored))

/-- READ_STATUS (R170) and BAD_REQUEST (R19, R167): a page of a section's items is 24 bytes after the page number and the
page count; a section or a page that does not exist is refused, and nothing changes. The reply to a MOTOR_CMD of an unknown
action carries the motor's state, and none where there is no such motor (log 24). That the snapshot counts this very frame
is the model's reading (log 22); details of the items' bytes are its own (log 13). -/
def Obligations.StatusPagesAreAnswered : Prop :=
  ∀ (s : State) (tag : Byte), s.part.Serving 1 →
    (∀ code, exec (.badRequest tag (.request code)) s =
      .next { s with part := s.part.replied ⟨tag, code, .badRequest, []⟩ }) ∧
    (∀ n, (3 ≤ n.toNat → exec (.badRequest tag (.action n)) s =
        .next { s with part := s.part.replied ⟨tag, 3#8, .badRequest, []⟩ }) ∧
      ∀ m : Slot, n.toNat = m.toNat → exec (.badRequest tag (.action n)) s =
        .next { s with part := s.part.replied ⟨tag, 3#8, .badRequest, [byte (s.part.motor m).slot.state.num]⟩ }) ∧
    ∀ (sect : BitVec 4) (page : Byte),
      let answers := fun (code : ReplyCode) (data : List Byte) =>
        exec (.readStatus tag sect page) s = .next { s with part := s.part.replied ⟨tag, 4#8, code, data⟩ }
      (8 ≤ sect.toNat → answers .badRequest []) ∧
      ∀ sc, sectionOf sect = some sc →
        -- the snapshot counts this frame; in LINK the transfer's upstream frame is consumed before it or after it
        ∃ u, (u = s.part.up ∨ u = s.part.transferEnded.up) ∧
          let pages := pagesFrom [] (({ s.part with link := s.part.link.served, up := u } : Part).items sc)
          (pages.length ≤ page.toNat → answers .badRequest []) ∧
          (∀ bytes, pages[page.toNat]? = some bytes →
            answers .ok ([page, byte pages.length] ++ bytes) ∧ bytes.length = 24)

/-- CLEAR_COUNTS (R171 with R14, R48, R69, R91, R108, R126, R138, R150, R160, R35): the counts of the section are 0, the built
counts are the SAMPLE frames queued, and nothing else changes but the reply; a section that does not exist is refused. That
the clear takes in the count of its own frame is the model's reading (log 22). -/
def Obligations.ClearCountsClearsTheSection : Prop :=
  ∀ (s : State) (tag : Byte) (sect : BitVec 4), s.part.Serving 1 →
    let answered := s.part.replied ⟨tag, 5#8, .ok, []⟩
    let tb := s.part.tb
    let st := s.part.store
    (8 ≤ sect.toNat →
      exec (.clearCounts tag sect) s = .next { s with part := s.part.replied ⟨tag, 5#8, .badRequest, []⟩ }) ∧
    (sect = 6#4 → exec (.clearCounts tag sect) s = .next { s with part := { answered with
      tb := { tb with slips := 0, missing := 0, extras := 0 }
      motors := s.part.motors.map fun q => { q with pace := { q.pace with trimLoss := 0 } } } }) ∧
    (∀ m : Slot, sect.toNat = m.toNat + 1 →
      let q := s.part.motor m
      exec (.clearCounts tag sect) s = .next { s with part := { answered with
        motors := s.part.motors.set m { q with
          setq := { q.setq with accepted := 0, overruns := 0, stales := 0, stateDiscards := 0, starvedValleys := 0 }
          planner := { q.planner with clampZero := 0, clampFull := 0, shiftA := 0, shiftB := 0, refused := 0 }
          gates := { q.gates with delays := 0 }
          seqr := { q.seqr with detected := 0, early := 0, late := 0, timeouts := 0, ramps := 0, postponed := 0 }
          finder := ⟨0, 0⟩
          prot := { q.prot with
            edges := 0, ocTrips := 0, currentTrips := 0, stallTrips := 0, tableTrips := 0, lockouts := 0 } } } }) ∧
    (sect = 4#4 → exec (.clearCounts tag sect) s = .next { s with part := { answered with
      sampler := { s.part.sampler with conversions := 0, rails := 0, busFrozen := 0, busMissed := 0, highWater := 0 }
      motors := s.part.motors.map fun q => { q with samp := ⟨0, 0, 0, 0⟩ } } }) ∧
    (sect = 5#4 → exec (.clearCounts tag sect) s = .next { s with part := { answered with
      store := { st with corrected := 0, uncorrectable := 0, lastCorrected := none, lastUncorrectable := none, passes := 0 } } }) ∧
    (sect = 7#4 → exec (.clearCounts tag sect) s = .next { s with part := { answered with
      bus := { s.part.bus with uvCross := 0, ovCross := 0 }
      cause := ⟨false, false, false⟩ } }) ∧
    (sect = 0#4 → ∃ t, exec (.clearCounts tag sect) s = .next t ∧ t.pending = s.pending ∧
      t.part.link = { s.part.link with
        errors := s.part.link.errors - 1, good := 0, badCheck := 0, aborted := 0, unknownKind := 0, routed := 0
        unmatchedCount := 0, droppedBy := 0, executed := 0, ignored := 0, degradedEntries := 0, lostEntries := 0 } ∧
      -- the transfer's upstream frame is consumed, and counted as sent, before the clear or after it
      (let samples := fun (u : Upstream) => u.queue.filterMap (·.body.sampleOf)
       let cleared := fun (u : Upstream) => ({ queue := u.queue, nextId := u.nextId, slots := u.slots, transfer := u.transfer
                                               dropped := u.dropped, built := (samples u).length, sent := 0, lost := 0
                                               builtBy := ⟨((samples u).filter (·.motor == .i0)).length,
                                                 ((samples u).filter (·.motor == .i1)).length,
                                                 ((samples u).filter (·.motor == .i2)).length⟩
                                               displaced := 0, refused := 0, replyLost := 0, noticeLost := 0, faultSent := 0
                                               replySent := 0, noticeSent := 0, idleSent := 0, unconsumed := 0 } : Upstream)
       ∃ u, (u = cleared s.part.transferEnded.up ∨
          u = ({ s.part with up := cleared s.part.up } : Part).transferEnded.up) ∧
        t.part.up = u.append (.reply ⟨tag, 5#8, .ok, []⟩)) ∧
      t.part.motors = s.part.motors ∧ t.part.tb = s.part.tb ∧
      t.part.store = s.part.store ∧ t.part.sampler = s.part.sampler ∧ t.part.bus = s.part.bus ∧ t.part.cause = s.part.cause)
end

