-- ==== Sys2Proof/Laws/State.lean ====
section
/-! SUPPORT. One lemma for each field under each update of the part and of a motor, true by rfl, so that no later proof
unfolds a record update; and the laws of the small containers. -/

namespace Sys2Proof

/-! ## Triples and phases -/

@[simp] theorem Triple.get_set_self {α : Type} (t : Triple α) (i : Ix3) (x : α) : (t.set i x).get i = x := by cases i <;> rfl

@[simp] theorem Triple.get_set_ne {α : Type} (t : Triple α) {i j : Ix3} (x : α) (h : j ≠ i) : (t.set i x).get j = t.get j := by
  cases i <;> cases j <;> first | rfl | exact absurd rfl h

@[simp] theorem Triple.get_map {α β : Type} (f : α → β) (t : Triple α) (i : Ix3) : (t.map f).get i = f (t.get i) := by cases i <;> rfl

@[simp] theorem Triple.get_const {α : Type} (x : α) (i : Ix3) : (Triple.const x).get i = x := by cases i <;> rfl

@[simp] theorem Triple.set_get_self {α : Type} (t : Triple α) (i : Ix3) : t.set i (t.get i) = t := by cases i <;> rfl

/-- Two triples with the same members are the same. -/
theorem Triple.ext_get {α : Type} {a b : Triple α} (h : ∀ i, a.get i = b.get i) : a = b := by
  cases a
  cases b
  have h0 := h .i0
  have h1 := h .i1
  have h2 := h .i2
  simp only [Triple.get] at h0 h1 h2
  rw [h0, h1, h2]

@[simp] theorem PerPhase.get_set_self {α : Type} (t : PerPhase α) (i : Phase) (x : α) : (t.set i x).get i = x := by cases i <;> rfl

@[simp] theorem PerPhase.get_set_ne {α : Type} (t : PerPhase α) {i j : Phase} (x : α) (h : j ≠ i) : (t.set i x).get j = t.get j := by
  cases i <;> cases j <;> first | rfl | exact absurd rfl h

@[simp] theorem PerPhase.get_map {α β : Type} (f : α → β) (t : PerPhase α) (i : Phase) : (t.map f).get i = f (t.get i) := by
  cases i <;> rfl

@[simp] theorem PerPhase.get_const {α : Type} (x : α) (i : Phase) : (PerPhase.const x).get i = x := by cases i <;> rfl

end Sys2Proof

namespace Sys2Proof.Machine

/-! ## Updates of the part -/

@[simp] theorem Part.modTb_en (p : Part) (f : Timebase → Timebase) : (p.modTb f).en = p.en := rfl
@[simp] theorem Part.modTb_tb (p : Part) (f : Timebase → Timebase) : (p.modTb f).tb = f p.tb := rfl
@[simp] theorem Part.modTb_motors (p : Part) (f : Timebase → Timebase) : (p.modTb f).motors = p.motors := rfl
@[simp] theorem Part.modTb_sampler (p : Part) (f : Timebase → Timebase) : (p.modTb f).sampler = p.sampler := rfl
@[simp] theorem Part.modTb_up (p : Part) (f : Timebase → Timebase) : (p.modTb f).up = p.up := rfl
@[simp] theorem Part.modTb_bus (p : Part) (f : Timebase → Timebase) : (p.modTb f).bus = p.bus := rfl
@[simp] theorem Part.modTb_store (p : Part) (f : Timebase → Timebase) : (p.modTb f).store = p.store := rfl
@[simp] theorem Part.modTb_link (p : Part) (f : Timebase → Timebase) : (p.modTb f).link = p.link := rfl
@[simp] theorem Part.modTb_cause (p : Part) (f : Timebase → Timebase) : (p.modTb f).cause = p.cause := rfl
@[simp] theorem Part.modTb_nextSched (p : Part) (f : Timebase → Timebase) : (p.modTb f).nextSched = p.nextSched := rfl
@[simp] theorem Part.modTb_outbox (p : Part) (f : Timebase → Timebase) : (p.modTb f).outbox = p.outbox := rfl
@[simp] theorem Part.modTb_free (p : Part) (f : Timebase → Timebase) : (p.modTb f).free = p.free := rfl
@[simp] theorem Part.modTb_motor (p : Part) (f : Timebase → Timebase) (m : Slot) : (p.modTb f).motor m = p.motor m := rfl

@[simp] theorem Part.modSampler_en (p : Part) (f : Sampler → Sampler) : (p.modSampler f).en = p.en := rfl
@[simp] theorem Part.modSampler_tb (p : Part) (f : Sampler → Sampler) : (p.modSampler f).tb = p.tb := rfl
@[simp] theorem Part.modSampler_motors (p : Part) (f : Sampler → Sampler) : (p.modSampler f).motors = p.motors := rfl
@[simp] theorem Part.modSampler_sampler (p : Part) (f : Sampler → Sampler) : (p.modSampler f).sampler = f p.sampler := rfl
@[simp] theorem Part.modSampler_up (p : Part) (f : Sampler → Sampler) : (p.modSampler f).up = p.up := rfl
@[simp] theorem Part.modSampler_bus (p : Part) (f : Sampler → Sampler) : (p.modSampler f).bus = p.bus := rfl
@[simp] theorem Part.modSampler_store (p : Part) (f : Sampler → Sampler) : (p.modSampler f).store = p.store := rfl
@[simp] theorem Part.modSampler_link (p : Part) (f : Sampler → Sampler) : (p.modSampler f).link = p.link := rfl
@[simp] theorem Part.modSampler_cause (p : Part) (f : Sampler → Sampler) : (p.modSampler f).cause = p.cause := rfl
@[simp] theorem Part.modSampler_nextSched (p : Part) (f : Sampler → Sampler) : (p.modSampler f).nextSched = p.nextSched := rfl
@[simp] theorem Part.modSampler_outbox (p : Part) (f : Sampler → Sampler) : (p.modSampler f).outbox = p.outbox := rfl
@[simp] theorem Part.modSampler_free (p : Part) (f : Sampler → Sampler) : (p.modSampler f).free = p.free := rfl
@[simp] theorem Part.modSampler_motor (p : Part) (f : Sampler → Sampler) (m : Slot) : (p.modSampler f).motor m = p.motor m := rfl

@[simp] theorem Part.modUp_en (p : Part) (f : Upstream → Upstream) : (p.modUp f).en = p.en := rfl
@[simp] theorem Part.modUp_tb (p : Part) (f : Upstream → Upstream) : (p.modUp f).tb = p.tb := rfl
@[simp] theorem Part.modUp_motors (p : Part) (f : Upstream → Upstream) : (p.modUp f).motors = p.motors := rfl
@[simp] theorem Part.modUp_sampler (p : Part) (f : Upstream → Upstream) : (p.modUp f).sampler = p.sampler := rfl
@[simp] theorem Part.modUp_up (p : Part) (f : Upstream → Upstream) : (p.modUp f).up = f p.up := rfl
@[simp] theorem Part.modUp_bus (p : Part) (f : Upstream → Upstream) : (p.modUp f).bus = p.bus := rfl
@[simp] theorem Part.modUp_store (p : Part) (f : Upstream → Upstream) : (p.modUp f).store = p.store := rfl
@[simp] theorem Part.modUp_link (p : Part) (f : Upstream → Upstream) : (p.modUp f).link = p.link := rfl
@[simp] theorem Part.modUp_cause (p : Part) (f : Upstream → Upstream) : (p.modUp f).cause = p.cause := rfl
@[simp] theorem Part.modUp_nextSched (p : Part) (f : Upstream → Upstream) : (p.modUp f).nextSched = p.nextSched := rfl
@[simp] theorem Part.modUp_outbox (p : Part) (f : Upstream → Upstream) : (p.modUp f).outbox = p.outbox := rfl
@[simp] theorem Part.modUp_free (p : Part) (f : Upstream → Upstream) : (p.modUp f).free = p.free := rfl
@[simp] theorem Part.modUp_motor (p : Part) (f : Upstream → Upstream) (m : Slot) : (p.modUp f).motor m = p.motor m := rfl

@[simp] theorem Part.modLink_en (p : Part) (f : Link → Link) : (p.modLink f).en = p.en := rfl
@[simp] theorem Part.modLink_tb (p : Part) (f : Link → Link) : (p.modLink f).tb = p.tb := rfl
@[simp] theorem Part.modLink_motors (p : Part) (f : Link → Link) : (p.modLink f).motors = p.motors := rfl
@[simp] theorem Part.modLink_sampler (p : Part) (f : Link → Link) : (p.modLink f).sampler = p.sampler := rfl
@[simp] theorem Part.modLink_up (p : Part) (f : Link → Link) : (p.modLink f).up = p.up := rfl
@[simp] theorem Part.modLink_bus (p : Part) (f : Link → Link) : (p.modLink f).bus = p.bus := rfl
@[simp] theorem Part.modLink_store (p : Part) (f : Link → Link) : (p.modLink f).store = p.store := rfl
@[simp] theorem Part.modLink_link (p : Part) (f : Link → Link) : (p.modLink f).link = f p.link := rfl
@[simp] theorem Part.modLink_cause (p : Part) (f : Link → Link) : (p.modLink f).cause = p.cause := rfl
@[simp] theorem Part.modLink_nextSched (p : Part) (f : Link → Link) : (p.modLink f).nextSched = p.nextSched := rfl
@[simp] theorem Part.modLink_outbox (p : Part) (f : Link → Link) : (p.modLink f).outbox = p.outbox := rfl
@[simp] theorem Part.modLink_free (p : Part) (f : Link → Link) : (p.modLink f).free = p.free := rfl
@[simp] theorem Part.modLink_motor (p : Part) (f : Link → Link) (m : Slot) : (p.modLink f).motor m = p.motor m := rfl

@[simp] theorem Part.modStore_en (p : Part) (f : Store → Store) : (p.modStore f).en = p.en := rfl
@[simp] theorem Part.modStore_tb (p : Part) (f : Store → Store) : (p.modStore f).tb = p.tb := rfl
@[simp] theorem Part.modStore_motors (p : Part) (f : Store → Store) : (p.modStore f).motors = p.motors := rfl
@[simp] theorem Part.modStore_sampler (p : Part) (f : Store → Store) : (p.modStore f).sampler = p.sampler := rfl
@[simp] theorem Part.modStore_up (p : Part) (f : Store → Store) : (p.modStore f).up = p.up := rfl
@[simp] theorem Part.modStore_bus (p : Part) (f : Store → Store) : (p.modStore f).bus = p.bus := rfl
@[simp] theorem Part.modStore_store (p : Part) (f : Store → Store) : (p.modStore f).store = f p.store := rfl
@[simp] theorem Part.modStore_link (p : Part) (f : Store → Store) : (p.modStore f).link = p.link := rfl
@[simp] theorem Part.modStore_cause (p : Part) (f : Store → Store) : (p.modStore f).cause = p.cause := rfl
@[simp] theorem Part.modStore_nextSched (p : Part) (f : Store → Store) : (p.modStore f).nextSched = p.nextSched := rfl
@[simp] theorem Part.modStore_outbox (p : Part) (f : Store → Store) : (p.modStore f).outbox = p.outbox := rfl
@[simp] theorem Part.modStore_free (p : Part) (f : Store → Store) : (p.modStore f).free = p.free := rfl
@[simp] theorem Part.modStore_motor (p : Part) (f : Store → Store) (m : Slot) : (p.modStore f).motor m = p.motor m := rfl

@[simp] theorem Part.modBus_en (p : Part) (f : BusSup → BusSup) : (p.modBus f).en = p.en := rfl
@[simp] theorem Part.modBus_tb (p : Part) (f : BusSup → BusSup) : (p.modBus f).tb = p.tb := rfl
@[simp] theorem Part.modBus_motors (p : Part) (f : BusSup → BusSup) : (p.modBus f).motors = p.motors := rfl
@[simp] theorem Part.modBus_sampler (p : Part) (f : BusSup → BusSup) : (p.modBus f).sampler = p.sampler := rfl
@[simp] theorem Part.modBus_up (p : Part) (f : BusSup → BusSup) : (p.modBus f).up = p.up := rfl
@[simp] theorem Part.modBus_bus (p : Part) (f : BusSup → BusSup) : (p.modBus f).bus = f p.bus := rfl
@[simp] theorem Part.modBus_store (p : Part) (f : BusSup → BusSup) : (p.modBus f).store = p.store := rfl
@[simp] theorem Part.modBus_link (p : Part) (f : BusSup → BusSup) : (p.modBus f).link = p.link := rfl
@[simp] theorem Part.modBus_cause (p : Part) (f : BusSup → BusSup) : (p.modBus f).cause = p.cause := rfl
@[simp] theorem Part.modBus_nextSched (p : Part) (f : BusSup → BusSup) : (p.modBus f).nextSched = p.nextSched := rfl
@[simp] theorem Part.modBus_outbox (p : Part) (f : BusSup → BusSup) : (p.modBus f).outbox = p.outbox := rfl
@[simp] theorem Part.modBus_free (p : Part) (f : BusSup → BusSup) : (p.modBus f).free = p.free := rfl
@[simp] theorem Part.modBus_motor (p : Part) (f : BusSup → BusSup) (m : Slot) : (p.modBus f).motor m = p.motor m := rfl

@[simp] theorem Part.modMotor_en (p : Part) (m : Slot) (f : Motor → Motor) : (p.modMotor m f).en = p.en := rfl
@[simp] theorem Part.modMotor_tb (p : Part) (m : Slot) (f : Motor → Motor) : (p.modMotor m f).tb = p.tb := rfl
@[simp] theorem Part.modMotor_sampler (p : Part) (m : Slot) (f : Motor → Motor) : (p.modMotor m f).sampler = p.sampler := rfl
@[simp] theorem Part.modMotor_up (p : Part) (m : Slot) (f : Motor → Motor) : (p.modMotor m f).up = p.up := rfl
@[simp] theorem Part.modMotor_bus (p : Part) (m : Slot) (f : Motor → Motor) : (p.modMotor m f).bus = p.bus := rfl
@[simp] theorem Part.modMotor_store (p : Part) (m : Slot) (f : Motor → Motor) : (p.modMotor m f).store = p.store := rfl
@[simp] theorem Part.modMotor_link (p : Part) (m : Slot) (f : Motor → Motor) : (p.modMotor m f).link = p.link := rfl
@[simp] theorem Part.modMotor_cause (p : Part) (m : Slot) (f : Motor → Motor) : (p.modMotor m f).cause = p.cause := rfl
@[simp] theorem Part.modMotor_nextSched (p : Part) (m : Slot) (f : Motor → Motor) : (p.modMotor m f).nextSched = p.nextSched := rfl
@[simp] theorem Part.modMotor_outbox (p : Part) (m : Slot) (f : Motor → Motor) : (p.modMotor m f).outbox = p.outbox := rfl
@[simp] theorem Part.modMotor_free (p : Part) (m : Slot) (f : Motor → Motor) : (p.modMotor m f).free = p.free := rfl

@[simp] theorem Part.modMotor_motor_self (p : Part) (m : Slot) (f : Motor → Motor) : (p.modMotor m f).motor m = f (p.motor m) :=
  Triple.get_set_self _ _ _

@[simp] theorem Part.modMotor_motor_ne (p : Part) {m k : Slot} (f : Motor → Motor) (h : k ≠ m) :
    (p.modMotor m f).motor k = p.motor k := Triple.get_set_ne _ _ h

@[simp] theorem Part.notice_en (p : Part) (n : Notice) : (p.notice n).en = p.en := rfl
@[simp] theorem Part.notice_tb (p : Part) (n : Notice) : (p.notice n).tb = p.tb := rfl
@[simp] theorem Part.notice_motors (p : Part) (n : Notice) : (p.notice n).motors = p.motors := rfl
@[simp] theorem Part.notice_sampler (p : Part) (n : Notice) : (p.notice n).sampler = p.sampler := rfl
@[simp] theorem Part.notice_up (p : Part) (n : Notice) : (p.notice n).up = p.up := rfl
@[simp] theorem Part.notice_bus (p : Part) (n : Notice) : (p.notice n).bus = p.bus := rfl
@[simp] theorem Part.notice_store (p : Part) (n : Notice) : (p.notice n).store = p.store := rfl
@[simp] theorem Part.notice_link (p : Part) (n : Notice) : (p.notice n).link = p.link := rfl
@[simp] theorem Part.notice_cause (p : Part) (n : Notice) : (p.notice n).cause = p.cause := rfl
@[simp] theorem Part.notice_nextSched (p : Part) (n : Notice) : (p.notice n).nextSched = p.nextSched := rfl
@[simp] theorem Part.notice_outbox (p : Part) (n : Notice) : (p.notice n).outbox = p.outbox ++ [n] := rfl
@[simp] theorem Part.notice_free (p : Part) (n : Notice) : (p.notice n).free = p.free := rfl
@[simp] theorem Part.notice_motor (p : Part) (n : Notice) (m : Slot) : (p.notice n).motor m = p.motor m := rfl

@[simp] theorem Part.modTb_now (p : Part) (f : Timebase → Timebase) : (p.modTb f).now = (f p.tb).tick := rfl
@[simp] theorem Part.modSampler_now (p : Part) (f : Sampler → Sampler) : (p.modSampler f).now = p.now := rfl
@[simp] theorem Part.modUp_now (p : Part) (f : Upstream → Upstream) : (p.modUp f).now = p.now := rfl
@[simp] theorem Part.modLink_now (p : Part) (f : Link → Link) : (p.modLink f).now = p.now := rfl
@[simp] theorem Part.modStore_now (p : Part) (f : Store → Store) : (p.modStore f).now = p.now := rfl
@[simp] theorem Part.modBus_now (p : Part) (f : BusSup → BusSup) : (p.modBus f).now = p.now := rfl
@[simp] theorem Part.modMotor_now (p : Part) (m : Slot) (f : Motor → Motor) : (p.modMotor m f).now = p.now := rfl
@[simp] theorem Part.notice_now (p : Part) (n : Notice) : (p.notice n).now = p.now := rfl

/-! ## Updates of a motor -/

@[simp] theorem Motor.modSlot_slot (q : Motor) (f : SlotBlock → SlotBlock) : (q.modSlot f).slot = f q.slot := rfl
@[simp] theorem Motor.modSlot_pace (q : Motor) (f : SlotBlock → SlotBlock) : (q.modSlot f).pace = q.pace := rfl
@[simp] theorem Motor.modSlot_setq (q : Motor) (f : SlotBlock → SlotBlock) : (q.modSlot f).setq = q.setq := rfl
@[simp] theorem Motor.modSlot_planner (q : Motor) (f : SlotBlock → SlotBlock) : (q.modSlot f).planner = q.planner := rfl
@[simp] theorem Motor.modSlot_gates (q : Motor) (f : SlotBlock → SlotBlock) : (q.modSlot f).gates = q.gates := rfl
@[simp] theorem Motor.modSlot_seqr (q : Motor) (f : SlotBlock → SlotBlock) : (q.modSlot f).seqr = q.seqr := rfl
@[simp] theorem Motor.modSlot_finder (q : Motor) (f : SlotBlock → SlotBlock) : (q.modSlot f).finder = q.finder := rfl
@[simp] theorem Motor.modSlot_scheds (q : Motor) (f : SlotBlock → SlotBlock) : (q.modSlot f).scheds = q.scheds := rfl
@[simp] theorem Motor.modSlot_samp (q : Motor) (f : SlotBlock → SlotBlock) : (q.modSlot f).samp = q.samp := rfl
@[simp] theorem Motor.modSlot_prot (q : Motor) (f : SlotBlock → SlotBlock) : (q.modSlot f).prot = q.prot := rfl

@[simp] theorem Motor.modPace_slot (q : Motor) (f : Pace → Pace) : (q.modPace f).slot = q.slot := rfl
@[simp] theorem Motor.modPace_pace (q : Motor) (f : Pace → Pace) : (q.modPace f).pace = f q.pace := rfl
@[simp] theorem Motor.modPace_setq (q : Motor) (f : Pace → Pace) : (q.modPace f).setq = q.setq := rfl
@[simp] theorem Motor.modPace_planner (q : Motor) (f : Pace → Pace) : (q.modPace f).planner = q.planner := rfl
@[simp] theorem Motor.modPace_gates (q : Motor) (f : Pace → Pace) : (q.modPace f).gates = q.gates := rfl
@[simp] theorem Motor.modPace_seqr (q : Motor) (f : Pace → Pace) : (q.modPace f).seqr = q.seqr := rfl
@[simp] theorem Motor.modPace_finder (q : Motor) (f : Pace → Pace) : (q.modPace f).finder = q.finder := rfl
@[simp] theorem Motor.modPace_scheds (q : Motor) (f : Pace → Pace) : (q.modPace f).scheds = q.scheds := rfl
@[simp] theorem Motor.modPace_samp (q : Motor) (f : Pace → Pace) : (q.modPace f).samp = q.samp := rfl
@[simp] theorem Motor.modPace_prot (q : Motor) (f : Pace → Pace) : (q.modPace f).prot = q.prot := rfl

@[simp] theorem Motor.modSetq_slot (q : Motor) (f : SetQueue → SetQueue) : (q.modSetq f).slot = q.slot := rfl
@[simp] theorem Motor.modSetq_pace (q : Motor) (f : SetQueue → SetQueue) : (q.modSetq f).pace = q.pace := rfl
@[simp] theorem Motor.modSetq_setq (q : Motor) (f : SetQueue → SetQueue) : (q.modSetq f).setq = f q.setq := rfl
@[simp] theorem Motor.modSetq_planner (q : Motor) (f : SetQueue → SetQueue) : (q.modSetq f).planner = q.planner := rfl
@[simp] theorem Motor.modSetq_gates (q : Motor) (f : SetQueue → SetQueue) : (q.modSetq f).gates = q.gates := rfl
@[simp] theorem Motor.modSetq_seqr (q : Motor) (f : SetQueue → SetQueue) : (q.modSetq f).seqr = q.seqr := rfl
@[simp] theorem Motor.modSetq_finder (q : Motor) (f : SetQueue → SetQueue) : (q.modSetq f).finder = q.finder := rfl
@[simp] theorem Motor.modSetq_scheds (q : Motor) (f : SetQueue → SetQueue) : (q.modSetq f).scheds = q.scheds := rfl
@[simp] theorem Motor.modSetq_samp (q : Motor) (f : SetQueue → SetQueue) : (q.modSetq f).samp = q.samp := rfl
@[simp] theorem Motor.modSetq_prot (q : Motor) (f : SetQueue → SetQueue) : (q.modSetq f).prot = q.prot := rfl

@[simp] theorem Motor.modPlanner_slot (q : Motor) (f : Planner → Planner) : (q.modPlanner f).slot = q.slot := rfl
@[simp] theorem Motor.modPlanner_pace (q : Motor) (f : Planner → Planner) : (q.modPlanner f).pace = q.pace := rfl
@[simp] theorem Motor.modPlanner_setq (q : Motor) (f : Planner → Planner) : (q.modPlanner f).setq = q.setq := rfl
@[simp] theorem Motor.modPlanner_planner (q : Motor) (f : Planner → Planner) : (q.modPlanner f).planner = f q.planner := rfl
@[simp] theorem Motor.modPlanner_gates (q : Motor) (f : Planner → Planner) : (q.modPlanner f).gates = q.gates := rfl
@[simp] theorem Motor.modPlanner_seqr (q : Motor) (f : Planner → Planner) : (q.modPlanner f).seqr = q.seqr := rfl
@[simp] theorem Motor.modPlanner_finder (q : Motor) (f : Planner → Planner) : (q.modPlanner f).finder = q.finder := rfl
@[simp] theorem Motor.modPlanner_scheds (q : Motor) (f : Planner → Planner) : (q.modPlanner f).scheds = q.scheds := rfl
@[simp] theorem Motor.modPlanner_samp (q : Motor) (f : Planner → Planner) : (q.modPlanner f).samp = q.samp := rfl
@[simp] theorem Motor.modPlanner_prot (q : Motor) (f : Planner → Planner) : (q.modPlanner f).prot = q.prot := rfl

@[simp] theorem Motor.modGates_slot (q : Motor) (f : GateStage → GateStage) : (q.modGates f).slot = q.slot := rfl
@[simp] theorem Motor.modGates_pace (q : Motor) (f : GateStage → GateStage) : (q.modGates f).pace = q.pace := rfl
@[simp] theorem Motor.modGates_setq (q : Motor) (f : GateStage → GateStage) : (q.modGates f).setq = q.setq := rfl
@[simp] theorem Motor.modGates_planner (q : Motor) (f : GateStage → GateStage) : (q.modGates f).planner = q.planner := rfl
@[simp] theorem Motor.modGates_gates (q : Motor) (f : GateStage → GateStage) : (q.modGates f).gates = f q.gates := rfl
@[simp] theorem Motor.modGates_seqr (q : Motor) (f : GateStage → GateStage) : (q.modGates f).seqr = q.seqr := rfl
@[simp] theorem Motor.modGates_finder (q : Motor) (f : GateStage → GateStage) : (q.modGates f).finder = q.finder := rfl
@[simp] theorem Motor.modGates_scheds (q : Motor) (f : GateStage → GateStage) : (q.modGates f).scheds = q.scheds := rfl
@[simp] theorem Motor.modGates_samp (q : Motor) (f : GateStage → GateStage) : (q.modGates f).samp = q.samp := rfl
@[simp] theorem Motor.modGates_prot (q : Motor) (f : GateStage → GateStage) : (q.modGates f).prot = q.prot := rfl

@[simp] theorem Motor.modSeqr_slot (q : Motor) (f : Sequencer → Sequencer) : (q.modSeqr f).slot = q.slot := rfl
@[simp] theorem Motor.modSeqr_pace (q : Motor) (f : Sequencer → Sequencer) : (q.modSeqr f).pace = q.pace := rfl
@[simp] theorem Motor.modSeqr_setq (q : Motor) (f : Sequencer → Sequencer) : (q.modSeqr f).setq = q.setq := rfl
@[simp] theorem Motor.modSeqr_planner (q : Motor) (f : Sequencer → Sequencer) : (q.modSeqr f).planner = q.planner := rfl
@[simp] theorem Motor.modSeqr_gates (q : Motor) (f : Sequencer → Sequencer) : (q.modSeqr f).gates = q.gates := rfl
@[simp] theorem Motor.modSeqr_seqr (q : Motor) (f : Sequencer → Sequencer) : (q.modSeqr f).seqr = f q.seqr := rfl
@[simp] theorem Motor.modSeqr_finder (q : Motor) (f : Sequencer → Sequencer) : (q.modSeqr f).finder = q.finder := rfl
@[simp] theorem Motor.modSeqr_scheds (q : Motor) (f : Sequencer → Sequencer) : (q.modSeqr f).scheds = q.scheds := rfl
@[simp] theorem Motor.modSeqr_samp (q : Motor) (f : Sequencer → Sequencer) : (q.modSeqr f).samp = q.samp := rfl
@[simp] theorem Motor.modSeqr_prot (q : Motor) (f : Sequencer → Sequencer) : (q.modSeqr f).prot = q.prot := rfl

@[simp] theorem Motor.modScheds_slot (q : Motor) (f : Schedules → Schedules) : (q.modScheds f).slot = q.slot := rfl
@[simp] theorem Motor.modScheds_pace (q : Motor) (f : Schedules → Schedules) : (q.modScheds f).pace = q.pace := rfl
@[simp] theorem Motor.modScheds_setq (q : Motor) (f : Schedules → Schedules) : (q.modScheds f).setq = q.setq := rfl
@[simp] theorem Motor.modScheds_planner (q : Motor) (f : Schedules → Schedules) : (q.modScheds f).planner = q.planner := rfl
@[simp] theorem Motor.modScheds_gates (q : Motor) (f : Schedules → Schedules) : (q.modScheds f).gates = q.gates := rfl
@[simp] theorem Motor.modScheds_seqr (q : Motor) (f : Schedules → Schedules) : (q.modScheds f).seqr = q.seqr := rfl
@[simp] theorem Motor.modScheds_finder (q : Motor) (f : Schedules → Schedules) : (q.modScheds f).finder = q.finder := rfl
@[simp] theorem Motor.modScheds_scheds (q : Motor) (f : Schedules → Schedules) : (q.modScheds f).scheds = f q.scheds := rfl
@[simp] theorem Motor.modScheds_samp (q : Motor) (f : Schedules → Schedules) : (q.modScheds f).samp = q.samp := rfl
@[simp] theorem Motor.modScheds_prot (q : Motor) (f : Schedules → Schedules) : (q.modScheds f).prot = q.prot := rfl

@[simp] theorem Motor.modSamp_slot (q : Motor) (f : SampCounts → SampCounts) : (q.modSamp f).slot = q.slot := rfl
@[simp] theorem Motor.modSamp_pace (q : Motor) (f : SampCounts → SampCounts) : (q.modSamp f).pace = q.pace := rfl
@[simp] theorem Motor.modSamp_setq (q : Motor) (f : SampCounts → SampCounts) : (q.modSamp f).setq = q.setq := rfl
@[simp] theorem Motor.modSamp_planner (q : Motor) (f : SampCounts → SampCounts) : (q.modSamp f).planner = q.planner := rfl
@[simp] theorem Motor.modSamp_gates (q : Motor) (f : SampCounts → SampCounts) : (q.modSamp f).gates = q.gates := rfl
@[simp] theorem Motor.modSamp_seqr (q : Motor) (f : SampCounts → SampCounts) : (q.modSamp f).seqr = q.seqr := rfl
@[simp] theorem Motor.modSamp_finder (q : Motor) (f : SampCounts → SampCounts) : (q.modSamp f).finder = q.finder := rfl
@[simp] theorem Motor.modSamp_scheds (q : Motor) (f : SampCounts → SampCounts) : (q.modSamp f).scheds = q.scheds := rfl
@[simp] theorem Motor.modSamp_samp (q : Motor) (f : SampCounts → SampCounts) : (q.modSamp f).samp = f q.samp := rfl
@[simp] theorem Motor.modSamp_prot (q : Motor) (f : SampCounts → SampCounts) : (q.modSamp f).prot = q.prot := rfl

@[simp] theorem Motor.modProt_slot (q : Motor) (f : MotorProt → MotorProt) : (q.modProt f).slot = q.slot := rfl
@[simp] theorem Motor.modProt_pace (q : Motor) (f : MotorProt → MotorProt) : (q.modProt f).pace = q.pace := rfl
@[simp] theorem Motor.modProt_setq (q : Motor) (f : MotorProt → MotorProt) : (q.modProt f).setq = q.setq := rfl
@[simp] theorem Motor.modProt_planner (q : Motor) (f : MotorProt → MotorProt) : (q.modProt f).planner = q.planner := rfl
@[simp] theorem Motor.modProt_gates (q : Motor) (f : MotorProt → MotorProt) : (q.modProt f).gates = q.gates := rfl
@[simp] theorem Motor.modProt_seqr (q : Motor) (f : MotorProt → MotorProt) : (q.modProt f).seqr = q.seqr := rfl
@[simp] theorem Motor.modProt_finder (q : Motor) (f : MotorProt → MotorProt) : (q.modProt f).finder = q.finder := rfl
@[simp] theorem Motor.modProt_scheds (q : Motor) (f : MotorProt → MotorProt) : (q.modProt f).scheds = q.scheds := rfl
@[simp] theorem Motor.modProt_samp (q : Motor) (f : MotorProt → MotorProt) : (q.modProt f).samp = q.samp := rfl
@[simp] theorem Motor.modProt_prot (q : Motor) (f : MotorProt → MotorProt) : (q.modProt f).prot = f q.prot := rfl

end Sys2Proof.Machine
end

