-- ==== Sys2Proof/Laws/Queue.lean ====
section
/-! SUPPORT. The end of a command and the general queue: what `settle` does, what joining does, and what a management
request that is executed comes to. -/

namespace Sys2Proof.Machine

/-! ## The end of a command -/

theorem Schedule.handed_not_complete (sc : Schedule) : ({ sc with handed := true } : Schedule).complete = false := by
  simp [Schedule.complete]

/-- Handing on leaves no complete schedule. -/
theorem Schedules.handOn_none_complete (s : Schedules) :
    ∀ sc ∈ s.handOn.latest.toList ++ s.handOn.older, sc.complete = false := by
  intro sc h
  simp only [Schedules.handOn, List.mem_append, Option.mem_toList, Option.map_eq_some_iff, List.mem_filter] at h
  rcases h with ⟨a, -, rfl⟩ | ⟨-, h⟩
  · split
    · exact Schedule.handed_not_complete a
    · exact Bool.eq_false_iff.2 ‹_›
  · simpa using h

/-- Handing on changes nothing where no schedule is complete. -/
theorem Schedules.handOn_quiet (s : Schedules) (h : ∀ sc ∈ s.latest.toList ++ s.older, sc.complete = false) : s.handOn = s := by
  obtain ⟨latest, older⟩ := s
  simp only [List.mem_append, Option.mem_toList] at h
  simp only [Schedules.handOn, Schedules.mk.injEq]
  refine ⟨?_, List.filter_eq_self.2 fun sc hs => by simp [h sc (.inr hs)]⟩
  cases latest with
  | none => rfl
  | some sc => simp [h sc (.inl rfl)]

theorem Schedules.ready_quiet (s : Schedules) (h : ∀ sc ∈ s.latest.toList ++ s.older, sc.complete = false) : s.ready = [] := by
  simp only [Schedules.ready, List.filter_eq_nil_iff]
  intro sc hs
  rw [h sc (by simp only [List.mem_append] at hs ⊢; exact hs.symm)]
  exact Bool.false_ne_true

theorem anyOrder_nil {α : Type} (k n : Nat) : anyOrder k n ([] : List α) = [] := by cases k <;> rfl

/-- R127: a command that raises no notice and completes no schedule makes no frame. -/
theorem Part.gather_quiet (p : Part) (h : p.Quiet) : p.gather = ([], p) := by
  have hr : p.readyFrames = [] := by
    simp [Part.readyFrames, Ix3.all, Schedules.ready_quiet _ (h.handed _)]
  have hj : p.joining = [] := by simp [Part.joining, h.outbox, hr]
  have hm : p.motors.map (fun q : Motor => q.modScheds Schedules.handOn) = p.motors := by
    apply Triple.ext_get
    intro i
    rw [Triple.get_map]
    have := Schedules.handOn_quiet (p.motor i).scheds (h.handed i)
    unfold Part.motor at this
    simp [Motor.modScheds, this]
  have ho := h.outbox
  have ha : arranged p.free [] = [] := by simp [arranged, anyOrder_nil, crossInOrder]
  simp only [Part.gather, hj, ha, hm, List.length_nil]
  cases p
  simp_all

@[simp] theorem Part.joinAll_nil (p : Part) : p.joinAll [] = p := rfl

/-- R127, R130: such a command ends as it stands. -/
theorem Part.settle_quiet (p : Part) (h : p.Quiet) : p.settle = p := by
  rw [Part.settle, p.gather_quiet h, Part.joinAll_nil]

@[simp] theorem Part.join_motors (p : Part) (b : FrameBody) : (p.join b).motors = p.motors := rfl

@[simp] theorem Part.join_outbox (p : Part) (b : FrameBody) : (p.join b).outbox = p.outbox := rfl

/-- Joining touches the upstream side alone. -/
theorem Part.joinAll_up (l : List FrameBody) (p : Part) : p.joinAll l = p.modUp fun u => l.foldl Upstream.join u := by
  induction l generalizing p with
  | nil => rfl
  | cons b l ih => exact ih (p.join b)

@[simp] theorem Part.joinAll_motors (l : List FrameBody) (p : Part) : (p.joinAll l).motors = p.motors := by
  rw [Part.joinAll_up, Part.modUp]

@[simp] theorem Part.joinAll_outbox (l : List FrameBody) (p : Part) : (p.joinAll l).outbox = p.outbox := by
  rw [Part.joinAll_up, Part.modUp]

/-- R120, R127: after a command nothing waits to join the queue. -/
theorem Part.settle_is_quiet (p : Part) : p.settle.Quiet := by
  constructor
  · simp only [Part.settle, Part.joinAll_outbox, Part.gather]
  · intro m sc h
    simp only [Part.settle, Part.motor, Part.joinAll_motors, Part.gather, Triple.get_map, Motor.modScheds_scheds] at h
    exact Schedules.handOn_none_complete _ sc h

/-! ## Joining -/

/-- R130: a frame that finds room joins at the tail. -/
theorem Upstream.join_room (u : Upstream) (b : FrameBody) (h : u.queue.length < 8) : u.join b = (u.countBuilt b).append b := by
  have hq : (u.countBuilt b).queue = u.queue := by cases b <;> rfl
  simp [Upstream.join, hq, h]

/-- R130, R136: a reply that joins and the consumption of the frame in transfer meet in either order. -/
theorem Upstream.consume_append (u : Upstream) (r : Reply) (h : u.Numbered) :
    (u.append (.reply r)).consume = u.consume.append (.reply r) := by
  cases ht : u.transfer with
  | absent => simp [Upstream.consume, Upstream.append, ht]
  | ignored => simp [Upstream.consume, Upstream.append, ht]
  | active c bytes loss changed =>
    cases c with
    | idle => simp [Upstream.consume, Upstream.append, ht]
    | fault m =>
      simp only [Upstream.consume, Upstream.append, ht]
      split <;> rfl
    | queued id =>
      have hid : id < u.nextId := h.carried id (by simp [ht, Transfer.queuedId])
      have hne : (u.nextId == id) = false := by simp; omega
      simp only [Upstream.consume, Upstream.append, ht, List.find?_append]
      cases hf : u.queue.find? (·.id == id) with
      | none => simp [hne]
      | some f =>
        simp only [Option.some_or, Upstream.countSent]
        cases f.body <;> simp [List.filter_append, hne, bne]

theorem Upstream.consume_nextId (u : Upstream) : u.consume.nextId = u.nextId := by
  unfold Upstream.consume
  split
  · split
    · rename_i f _
      cases f with | mk id b => cases b <;> rfl
    · rfl
  · split <;> rfl
  · rfl
  · rfl
  · rfl

theorem Upstream.consume_queue_length (u : Upstream) : u.consume.queue.length ≤ u.queue.length := by
  unfold Upstream.consume
  split
  · split
    · exact List.length_filter_le _ _
    · exact Nat.le_refl _
  · split <;> exact Nat.le_refl _
  · exact Nat.le_refl _
  · exact Nat.le_refl _
  · exact Nat.le_refl _

/-! ## Management requests -/

/-- The part in which a management request is executed. -/
def Part.asServed (p : Part) (u : Upstream) (free : Nat) : Part := { p with link := p.link.served, up := u, free := free }

/-- R166, R167: a request that finds a good frame, touches no queue and raises nothing: its own effect and the reply. -/
theorem Part.takeRequest_serving (p : Part) (tag code : Byte) (f : Bool → Part → (ReplyCode × List Byte) × Part)
    (g : Part → Part) (r : ReplyCode × List Byte) (h : p.Serving 1)
    (hf : ∀ u n, f (actsDegraded p.link.errors) (p.asServed u n) = (r, g (p.asServed u n)))
    (hg : ∀ u n, g (p.asServed u n) = { g (p.asServed p.up p.free) with up := u, free := n })
    (hq : (g (p.asServed p.up p.free)).Quiet) :
    p.takeRequest tag code f =
      { g (p.asServed p.up p.free) with
        up := p.transferEnded.up.append (.reply ⟨tag, code, r.1, r.2⟩), free := p.transferEnded.free } := by
  have hquiet : ∀ u n, (g (p.asServed u n)).Quiet := fun u n => by
    rw [hg]
    exact ⟨hq.outbox, hq.handed⟩
  have hlost : ∀ (u : Upstream) (n : Nat),
      (({ p with up := u, free := n } : Part).modLink fun l => { l with good := bump l.good }).link.state ≠ .lost := by
    intro u n
    have := h.notLost
    by_cases h1 : p.link.errors < 128 <;> simp [Link.state, h1, this]
  have hgood : ∀ (u : Upstream) (n : Nat),
      (({ p with up := u, free := n } : Part).goodFrame fun d p => p.request tag code (f d)) =
        ([.reply ⟨tag, code, r.1, r.2⟩], { g (p.asServed p.up p.free) with up := u, free := n }) := by
    intro u n
    have hstep : (({ p with up := u, free := n } : Part).goodFrame fun d p => p.request tag code (f d)) =
        ((f (actsDegraded p.link.errors) (p.asServed u n)).2.gather.1 ++
          [.reply ⟨tag, code, (f (actsDegraded p.link.errors) (p.asServed u n)).1.1,
            (f (actsDegraded p.link.errors) (p.asServed u n)).1.2⟩],
          (f (actsDegraded p.link.errors) (p.asServed u n)).2.gather.2) := by
      unfold Part.goodFrame
      rw [if_neg (hlost u n)]
      rfl
    rw [hstep, hf, Part.gather_quiet _ (hquiet u n), hg]
    rfl
  have hone : ∀ (u : Upstream) (n : Nat) (q : Part), u.queue.length < 8 →
      ({ q with up := u, free := n } : Part).joinAll [.reply ⟨tag, code, r.1, r.2⟩] =
        { q with up := u.append (.reply ⟨tag, code, r.1, r.2⟩), free := n } := by
    intro u n q hu
    simp only [Part.joinAll, List.foldl_cons, List.foldl_nil, Part.join, Part.modUp]
    rw [Upstream.join_room _ _ hu]
    rfl
  have hroom := h.room
  have hle := Upstream.consume_queue_length p.up
  unfold Part.takeRequest Part.takeFrame Part.endTransfer Part.transferEnded
  cases ht : p.up.transfer with
  | ignored => exact absurd ht h.taken
  | absent =>
    simp only [h.en, if_true]
    rw [show p = ({ p with up := p.up, free := p.free } : Part) from rfl, hgood]
    exact hone p.up p.free _ (by omega)
  | active c bytes loss changed =>
    simp only [Part.flip]
    cases hb : (Config.pick p.free % 2 == 0) with
    | true =>
      simp only
      rw [show ({ p with free := p.free + 1 } : Part).modUp Upstream.consume =
        { p with up := p.up.consume, free := p.free + 1 } from rfl, hgood]
      exact hone p.up.consume (p.free + 1) _ (by omega)
    | false =>
      simp only
      rw [show ({ p with free := p.free + 1 } : Part) = { p with up := p.up, free := p.free + 1 } from rfl, hgood]
      simp only [List.length_singleton]
      rcases Nat.mod_two_eq_zero_or_one (Config.pick p.free / 2) with hk | hk
      · simp only [hk, List.take_zero, List.drop_zero, Part.joinAll_nil]
        exact hone p.up.consume (p.free + 1) _ (by omega)
      · simp only [hk, List.take_one, List.head?_cons, Option.toList_some, List.drop_one, List.tail_cons, Part.joinAll_nil]
        rw [hone p.up (p.free + 1) _ (by omega), Part.modUp]
        simp only
        rw [Upstream.consume_append _ _ h.numbered]

end Sys2Proof.Machine
end

