-- ==== Sys2Proof/Laws/Events.lean ====
section
/-! SUPPORT. Timed commands: when they are taken, and what they then come to. -/

namespace Sys2Proof.Machine

/-- An event that is due at this very instant comes before none. -/
theorem Part.noneBefore_zero (p : Part) : p.noneBefore 0 = true := by
  simp only [Part.noneBefore, List.all_eq_true]
  intro e _
  split <;> simp

/-- A timed command whose event is due now and whose turn it is. -/
theorem Part.takeTimed_now (p : Part) (e : Instr) (f : Part → Part) (he : p.en = true) (hd : p.delay e = some 0)
    (hr : p.ready e = true) : p.takeTimed e f = (f p).settle := by
  have hu : p.upTo 0 = p := rfl
  simp [Part.takeTimed, he, hd, p.noneBefore_zero, hu, hr]

/-- The same, for an effect that raises no notice and completes no schedule. -/
theorem Part.takeTimed_quiet (p : Part) (e : Instr) (f : Part → Part) (he : p.en = true) (hd : p.delay e = some 0)
    (hr : p.ready e = true) (hq : (f p).Quiet) : p.takeTimed e f = f p := by
  rw [p.takeTimed_now e f he hd hr, Part.settle_quiet _ hq]

/-- Where all is placed, the list stands and no cycle end is due: the head's fit is its holds against the eligible ones. -/
theorem Part.headFits_of_placed (p : Part) (h : p.placed = true) :
    p.listStands = true ∧ p.headFits = p.sampler.servable p.now := by
  have hd : ∀ e ∈ placers, (p.delay e != some 0) = true := by simpa [Part.placed, List.all_eq_true] using h
  have he : p.tb.untilEnd ≠ 0 := by
    have := hd .masterCycleEnd (by simp [placers])
    simpa [Part.delay] using this
  refine ⟨?_, ?_⟩
  · simp only [Part.listStands, List.all_eq_true]
    intro e hm
    simp only [hd e hm, Bool.true_or]
  · unfold Part.headFits Sampler.servable Part.busAhead
    cases p.sampler.waiting <;> simp [he]

/-- R115: the arbiter's turn, once all is placed. -/
theorem Part.ready_freeze_of_placed (p : Part) (h : p.placed = true) : p.ready .freeze = p.sampler.servable p.now := by
  simp [Part.ready, p.headFits_of_placed h]

/-- R116: a deadline's turn, once all is placed. -/
theorem Part.ready_deadline_of_placed (p : Part) (r : Waiter) (h : p.placed = true) :
    p.ready (.deadline r) = !p.sampler.servable p.now := by
  simp [Part.ready, p.headFits_of_placed h]

/-- A timed command with no such event to come changes nothing (log 1). -/
theorem Part.takeTimed_none (p : Part) (e : Instr) (f : Part → Part) (h : p.delay e = none) : p.takeTimed e f = p := by
  unfold Part.takeTimed
  split
  · rfl
  · simp [h]

/-- R114: a request put on the waiting list stands behind those it is not before, ahead of one it is before. -/
theorem insertWait_joined (a : WaitItem) (l : List WaitItem) : JoinedAt a l (insertWait a l) := by
  induction l with
  | nil => exact ⟨[], [], rfl, rfl, by simp, by simp⟩
  | cons b l ih =>
    cases h : a.before b with
    | true => exact ⟨[], b :: l, rfl, by simp [insertWait, h], by simp, by simpa using h⟩
    | false =>
      obtain ⟨front, back, h1, h2, h3, h4⟩ := ih
      refine ⟨b :: front, back, by simp [h1], by simp [insertWait, h, h2], ?_, h4⟩
      intro x hx
      rcases List.mem_cons.1 hx with rfl | hx
      · exact h
      · exact h3 x hx

end Sys2Proof.Machine
end

