-- ==== Sys2Proof/Laws/Gates.lean ====
section
/-! SUPPORT. The gate output stage: what each change does to the gate it names, and that it touches no other gate. -/

namespace Sys2Proof.Machine

@[simp] theorem PhaseGates.get_set_self (pg : PhaseGates) (s : Switch) (g : Gate) : (pg.set s g).get s = g := by cases s <;> rfl

@[simp] theorem PhaseGates.get_set_other (pg : PhaseGates) {s r : Switch} (g : Gate) (h : r ≠ s) : (pg.set s g).get r = pg.get r := by
  cases s <;> cases r <;> first | rfl | exact absurd rfl h

@[simp] theorem GateStage.gateAt_setGate_self (st : GateStage) (x : Phase) (s : Switch) (g : Gate) :
    (st.setGate x s g).gateAt x s = g := by
  simp [GateStage.setGate, GateStage.gateAt]

theorem GateStage.gateAt_setGate_ne (st : GateStage) {x y : Phase} {s r : Switch} (g : Gate) (h : ¬(y = x ∧ r = s)) :
    (st.setGate x s g).gateAt y r = st.gateAt y r := by
  by_cases hy : y = x
  · subst hy
    have : r ≠ s := fun e => h ⟨rfl, e⟩
    simp [GateStage.setGate, GateStage.gateAt, this]
  · simp [GateStage.setGate, GateStage.gateAt, hy]

@[simp] theorem GateStage.gateAt_countDelay (st : GateStage) (b : Bool) (x : Phase) (s : Switch) :
    (st.countDelay b).gateAt x s = st.gateAt x s := by
  cases b <;> rfl

/-- R66: after its turn-off a gate is off with no turn-on pending; a gate that was on has this instant as its last turn-off,
any other keeps its own. -/
theorem GateStage.turnOff_self (st : GateStage) (now : Tick) (x : Phase) (s : Switch) :
    (st.turnOff now x s).gateAt x s =
      if (st.gateAt x s).on then { on := false, lastOff := now, settled := false, pend := none }
      else { st.gateAt x s with pend := none } := by
  simp only [GateStage.turnOff]
  cases hon : (st.gateAt x s).on with
  | true => simp
  | false =>
    cases hp : (st.gateAt x s).pend with
    | some pd => simp
    | none =>
      simp only [Bool.false_eq_true, if_false]
      rw [← hp, ← hon]

/-- A turn-off touches no other gate. -/
theorem GateStage.turnOff_other (st : GateStage) (now : Tick) {x y : Phase} {s r : Switch} (h : ¬(y = x ∧ r = s)) :
    (st.turnOff now x s).gateAt y r = st.gateAt y r := by
  simp only [GateStage.turnOff]
  split
  · exact gateAt_setGate_ne _ _ h
  · split
    · rw [gateAt_countDelay]
      exact gateAt_setGate_ne _ _ h
    · rfl

/-- R65: after a turn-on request a gate is on as it was; or turned on, its partner off for the dead time; or pending. -/
theorem GateStage.turnOn_self (st : GateStage) (now : Tick) (dt : Nat) (counted : Bool) (x : Phase) (s : Switch) :
    (st.turnOn now dt counted x s).gateAt x s =
      if (st.gateAt x s).on then st.gateAt x s
      else if (st.gateAt x s.other).on = false ∧ (st.gateAt x s.other).gapOver now dt = true then
        { st.gateAt x s with on := true, pend := none }
      else { st.gateAt x s with pend := some ⟨now, counted⟩ } := by
  simp only [GateStage.turnOn]
  cases (st.gateAt x s).on with
  | true => simp
  | false =>
    cases (st.gateAt x s.other).on <;> cases (st.gateAt x s.other).gapOver now dt <;> simp

/-- A turn-on request touches no other gate. -/
theorem GateStage.turnOn_other (st : GateStage) (now : Tick) (dt : Nat) (counted : Bool) {x y : Phase} {s r : Switch}
    (h : ¬(y = x ∧ r = s)) : (st.turnOn now dt counted x s).gateAt y r = st.gateAt y r := by
  simp only [GateStage.turnOn]
  split
  · rfl
  · split <;> exact gateAt_setGate_ne _ _ h

/-- R65: a pending turn-on that is carried out. -/
theorem GateStage.carryOut_self (st : GateStage) (now : Tick) (dt : Nat) (x : Phase) (s : Switch) (pd : PendOn)
    (hp : (st.gateAt x s).pend = some pd) (h : st.pendReady now dt x s = true) :
    (st.carryOut now dt x s).gateAt x s = { st.gateAt x s with on := true, pend := none } := by
  simp [GateStage.carryOut, hp, h]

theorem GateStage.carryOut_other (st : GateStage) (now : Tick) (dt : Nat) {x y : Phase} {s r : Switch}
    (h : ¬(y = x ∧ r = s)) : (st.carryOut now dt x s).gateAt y r = st.gateAt y r := by
  unfold GateStage.carryOut
  split
  · split
    · rw [gateAt_countDelay]
      exact gateAt_setGate_ne _ _ h
    · rfl
  · rfl

/-- One phase with both its gates turned off. -/
theorem GateStage.bothOff_self (st : GateStage) (now : Tick) (x : Phase) (s : Switch) :
    (((st.turnOff now x .low).turnOff now x .high).gateAt x s).on = false ∧
      (((st.turnOff now x .low).turnOff now x .high).gateAt x s).pend = none := by
  cases s with
  | low =>
    rw [turnOff_other _ _ (by simp), turnOff_self]
    split
    · exact ⟨rfl, rfl⟩
    · exact ⟨by simp_all, rfl⟩
  | high =>
    rw [turnOff_self]
    split
    · exact ⟨rfl, rfl⟩
    · exact ⟨by simp_all, rfl⟩

theorem GateStage.bothOff_other (st : GateStage) (now : Tick) {x y : Phase} (s : Switch) (h : y ≠ x) :
    ((st.turnOff now x .low).turnOff now x .high).gateAt y s = st.gateAt y s := by
  rw [turnOff_other _ _ (fun e => h e.1), turnOff_other _ _ (fun e => h e.1)]

/-- R17, ALL_OFF: all six gates off, nothing pending. -/
theorem GateStage.allOff_allOff (st : GateStage) (now : Tick) : (st.allOff now).AllOff := by
  intro x s
  unfold GateStage.allOff GateStage.eachPhase
  cases x with
  | u =>
    rw [bothOff_other _ _ _ (by simp), bothOff_other _ _ _ (by simp)]
    exact bothOff_self _ _ _ _
  | v =>
    rw [bothOff_other _ _ _ (by simp)]
    exact bothOff_self _ _ _ _
  | w => exact bothOff_self _ _ _ _

end Sys2Proof.Machine
end

