-- ==== Sys2Proof/Laws/Link.lean ====
section
/-! SUPPORT. Taking a downstream frame: the link states by their error counts, and what a good frame comes to. -/

namespace Sys2Proof.Machine

/-- R164: LOST from 256 on. -/
theorem Link.lost_iff (l : Link) : l.state = .lost ↔ 256 ≤ l.errors := by
  unfold Link.state
  split
  · simp only [reduceCtorEq, false_iff]
    omega
  · split
    · simp only [reduceCtorEq, false_iff]
      omega
    · simp only [true_iff]
      omega

/-- R165: a good frame while the link is LOST is counted and not acted on. -/
theorem Part.goodFrame_lost (p : Part) (act : Bool → FrameEffect) (h : 256 ≤ p.link.errors) :
    p.goodFrame act = ([], p.modLink fun l => { l with good := bump l.good }.recover) := by
  have hl : (p.modLink fun l => { l with good := bump l.good }).link.state = .lost := (Link.lost_iff _).2 h
  simp only [Part.goodFrame, hl, if_true]
  rfl

/-- R164: any other good frame is counted, lowers the error count and is acted on. -/
theorem Part.goodFrame_acted (p : Part) (act : Bool → FrameEffect) (h : p.link.errors < 256) :
    p.goodFrame act = act (actsDegraded p.link.errors) (p.modLink Link.took) := by
  have hl : (p.modLink fun l => { l with good := bump l.good }).link.state ≠ .lost := fun e =>
    Nat.not_le.2 h ((Link.lost_iff _).1 e)
  simp only [Part.goodFrame, hl, if_false]
  rfl

/-- R131, R136: the end of a transfer in progress comes before the downstream frame's effect, or after it, in some place among
the frames that the effect makes. -/
theorem Part.endTransfer_active (p : Part) (fin : Upstream → Upstream) (act : FrameEffect) (ha : p.up.transfer ≠ .absent)
    (hi : p.up.transfer ≠ .ignored) :
    let q := { p with free := p.free + 1 }
    p.endTransfer fin act = (act (q.modUp fin)).2.joinAll (act (q.modUp fin)).1 ∨
      ∃ n ≤ (act q).1.length,
        p.endTransfer fin act = (((act q).2.joinAll ((act q).1.take n)).modUp fin).joinAll ((act q).1.drop n) := by
  intro q
  unfold Part.endTransfer
  cases hx : p.up.transfer with
  | absent => exact absurd hx ha
  | ignored => exact absurd hx hi
  | active c bytes loss changed =>
    simp only [Part.flip]
    cases Config.pick p.free % 2 == 0 with
    | true => exact .inl rfl
    | false => exact .inr ⟨_, Nat.le_of_lt_succ (Nat.mod_lt _ (Nat.succ_pos _)), rfl⟩

/-- R131, R136: a frame that makes no frame upstream and whose effect neither reads nor writes the upstream side and the
counter of free choices, at the end of its transfer: the effect and the consumption, whichever comes first. -/
theorem Part.takeFrame_apart (p : Part) (act : FrameEffect) (g : Part → Part) (he : p.en = true)
    (ht : p.up.transfer ≠ .ignored) (h : ∀ u n, act { p with up := u, free := n } = ([], { g p with up := u, free := n })) :
    p.takeFrame act = { g p with up := p.transferEnded.up, free := p.transferEnded.free } := by
  unfold Part.takeFrame Part.endTransfer Part.transferEnded
  cases hx : p.up.transfer with
  | absent =>
    rw [if_pos he, show p = ({ p with up := p.up, free := p.free } : Part) from rfl, h]
    rfl
  | ignored => exact absurd hx ht
  | active c bytes loss changed =>
    simp only [Part.flip]
    cases Config.pick p.free % 2 == 0 with
    | true =>
      simp only
      rw [show ({ p with free := p.free + 1 } : Part).modUp Upstream.consume =
        { p with up := p.up.consume, free := p.free + 1 } from rfl, h]
      rfl
    | false =>
      simp only
      rw [show ({ p with free := p.free + 1 } : Part) = { p with up := p.up, free := p.free + 1 } from rfl, h]
      simp only [List.length_nil, List.take_nil, List.drop_nil, Part.joinAll_nil]
      rfl

end Sys2Proof.Machine
end

