-- ==== Sys2Proof/Laws/Slots.lean ====
section
/-! SUPPORT. Leaving RUNNING, SAFE_STOP and the trips: what each shared operation does to the motor it names. -/

namespace Sys2Proof.Machine

/-- R117: cancelling touches the named motor and the waiting list only. -/
theorem Part.cancelUnfrozen_motor_ne (p : Part) {m k : Slot} (h : k ≠ m) : (p.cancelUnfrozen m).motor k = p.motor k := by
  simp only [Part.cancelUnfrozen, Part.modSampler_motor]
  exact Part.modMotor_motor_ne _ _ h

theorem Part.leaveRun_motor_ne (p : Part) {m k : Slot} (st : MotorState) (c : Option StopCause) (h : k ≠ m) :
    (p.leaveRun m st c).motor k = p.motor k := by
  unfold Part.leaveRun
  rw [modMotor_motor_ne _ _ h, cancelUnfrozen_motor_ne _ h]

/-- R117: after a cancellation the waiting list holds no request of the motor. -/
theorem Part.cancelUnfrozen_waiting (p : Part) (m : Slot) : ∀ w ∈ (p.cancelUnfrozen m).sampler.waiting, w.ofMotor m = false := by
  intro w h
  simpa using (List.mem_filter.1 h).2

/-- R28: what leaving RUNNING or START_PENDING does to the motor's slot, pace, queue, planner and sequencer. -/
theorem Part.leaveRun_motor_self (p : Part) (m : Slot) (st : MotorState) (c : Option StopCause) :
    let q := p.motor m
    let t := (p.leaveRun m st c).motor m
    t.slot = { q.slot with state := st, park := false, stopCause := c, start := none } ∧
      t.pace = { q.pace with trim := 0, carrier := none } ∧
      t.setq = { q.setq with recs := [], overrunFlag := false, staleFlag := false, starved := 0 } ∧
      t.planner = { q.planner with last := none, prev := none } ∧ t.seqr = { q.seqr with run := none } ∧
      t.gates = q.gates ∧ t.prot = q.prot ∧ t.finder = q.finder := by
  simp only [Part.leaveRun, modMotor_motor_self]
  have h : (p.cancelUnfrozen m).motor m =
      { p.motor m with
        samp := { (p.motor m).samp with missedState := bumpBy (p.motor m).samp.missedState (p.motor m).scheds.unfrozen }
        scheds := (p.motor m).scheds.mapReqs Request.cancel } := by
    simp only [Part.cancelUnfrozen, Part.modSampler_motor, modMotor_motor_self]
  rw [h]
  exact ⟨rfl, rfl, rfl, rfl, rfl, rfl, rfl, rfl⟩

/-- R27: a SAFE_STOP request leaves a motor that is neither RUNNING nor START_PENDING as it is. -/
theorem Part.safeStop_idle (p : Part) (c : StopCause) (m : Slot) (h : (p.motor m).slot.state ≠ .running)
    (k : (p.motor m).slot.state ≠ .startPending) : p.safeStop c m = p := by
  unfold Part.safeStop
  split <;> first | rfl | contradiction

/-- R27: a SAFE_STOP request for a driven motor. -/
theorem Part.safeStop_driven (p : Part) (c : StopCause) (m : Slot)
    (h : (p.motor m).slot.state = .running ∨ (p.motor m).slot.state = .startPending) :
    p.safeStop c m = ((p.leaveRun m .safeStop (some c)).modMotor m (·.safeAction p.now)).notice (.safeStop m c) := by
  unfold Part.safeStop
  rcases h with h | h <;> rw [h]

/-- R142: a trip event whose cause is not OC_PIN counts in RUNNING only. -/
theorem Part.trip_not_running (p : Part) (e : TripEvent) (m : Slot) (h : (p.motor m).slot.state ≠ .running)
    (k : e.cause ≠ .ocPin) : p.trip e m = p := by
  unfold Part.trip
  split <;> first | rfl | contradiction | simp [k]

/-- R31, R143: a trip event in RUNNING. -/
theorem Part.trip_running (p : Part) (e : TripEvent) (m : Slot) (h : (p.motor m).slot.state = .running) :
    p.trip e m = ((p.leaveRun m .tripped none).modMotor m (·.tripped e p.now)).reportFault m := by
  unfold Part.trip
  rw [h]

/-- R31: whatever the cause, the gates of a motor that trips hold the trip action; for OC_PIN all are off. -/
theorem Motor.tripped_ocPin (q : Motor) (e : TripEvent) (now : Tick) (h : e.cause = .ocPin) : (q.tripped e now).gates.AllOff := by
  simp only [Motor.tripped, Motor.tripAction, h, if_true]
  exact GateStage.allOff_allOff _ _

end Sys2Proof.Machine
end

