-- ==== Sys2Proof/Laws/Store.lean ====
section
/-! SUPPORT. Reading the table store: what a read of words that hold data does. -/

namespace Sys2Proof.Machine

/-- Every word among some that is valid can be read. -/
def Store.WholeAt (st : Store) (l : List (Fin 82)) : Prop := ∀ pos ∈ l, (st.word pos).valid = true → (st.word pos).broken pos = false

theorem Store.Corrected.refl (st : Store) : st.Corrected st := ⟨fun _ => rfl, fun _ => rfl, rfl, rfl⟩

theorem Store.Corrected.trans {a b c : Store} (h : a.Corrected b) (k : b.Corrected c) : a.Corrected c :=
  ⟨fun p => (k.fields p).trans (h.fields p), fun p => (k.valid p).trans (h.valid p), k.scrubPos.trans h.scrubPos,
    k.uncorrectable.trans h.uncorrectable⟩

theorem Store.word_setWord (st : Store) (pos q : Fin 82) (w : StoreWord) :
    (st.setWord pos w).word q = if q = pos then w else st.word q := by
  unfold Store.setWord Store.word
  by_cases h : q = pos
  · subst h
    simp
  · rw [if_neg h]
    exact Vector.getElem_set_ne pos.isLt q.isLt (fun e => h (Fin.ext e.symm))

@[simp] theorem Store.word_correct (st : Store) (pos q : Fin 82) :
    (st.correct pos).word q = if q = pos then { st.word pos with flips := .whole } else st.word q := by
  show (st.setWord pos _).word q = _
  exact word_setWord _ _ _ _

/-- R157: a correction changes no field and no valid mark. -/
theorem Store.correct_corrected (st : Store) (pos : Fin 82) : st.Corrected (st.correct pos) := by
  refine ⟨fun q => ?_, fun q => ?_, rfl, rfl⟩
  all_goals
    rw [word_correct]
    split
    · rename_i h
      rw [h]
    · rfl

/-- A correction leaves every other word's reading as it was, and its own whole. -/
theorem Store.correct_wholeAt (st : Store) (pos : Fin 82) (l : List (Fin 82)) (hw : (st.word pos).broken pos = false)
    (h : st.WholeAt l) : (st.correct pos).WholeAt l := by
  intro q hq hv
  rw [word_correct] at hv ⊢
  split
  · rename_i e
    rw [e]
    simp only [StoreWord.broken, Bool.or_eq_false_iff] at hw ⊢
    exact ⟨rfl, hw.2⟩
  · rename_i e
    rw [if_neg e] at hv
    exact h q hq hv

/-- R157: a read of a word that gives data. -/
theorem Part.readWord_readable (p : Part) (pos : Fin 82) (h : p.store.Readable pos) :
    ∃ st, p.store.Corrected st ∧ p.readWord pos = (some (p.store.word pos).fields, { p with store := st }) ∧
      ∀ l, p.store.WholeAt l → st.WholeAt l := by
  unfold Part.readWord
  simp only [h.1, h.2, Bool.not_true, Bool.false_eq_true, if_false]
  cases (p.store.word pos).flips with
  | one => exact ⟨_, Store.correct_corrected _ _, rfl, fun l hl => Store.correct_wholeAt _ _ _ h.2 hl⟩
  | whole | two => exact ⟨_, Store.Corrected.refl _, rfl, fun l hl => hl⟩

/-- R142: a read for a motor of a word that gives data. -/
theorem Part.readFor_readable (p : Part) (m : Slot) (pos : Fin 82) (h : p.store.Readable pos) :
    ∃ st, p.store.Corrected st ∧ p.readFor m pos = (some (p.store.word pos).fields, { p with store := st }) ∧
      ∀ l, p.store.WholeAt l → st.WholeAt l := by
  obtain ⟨st, hc, hr, hl⟩ := p.readWord_readable pos h
  exact ⟨st, hc, by simp [Part.readFor, hr], hl⟩

/-- Words read one after another, none of them broken: nothing but corrections. -/
theorem Part.readWords_whole (l : List (Fin 82)) (p : Part) (h : p.store.WholeAt l) :
    ∃ st, p.store.Corrected st ∧ p.readWords l = { p with store := st } := by
  induction l generalizing p with
  | nil => exact ⟨_, Store.Corrected.refl _, rfl⟩
  | cons pos l ih =>
    have htail : p.store.WholeAt l := fun q hq => h q (List.mem_cons_of_mem _ hq)
    cases hv : (p.store.word pos).valid with
    | false =>
      obtain ⟨st, hc, hr⟩ := ih p htail
      exact ⟨st, hc, by simp [Part.readWords, Part.readWord, hv, hr]⟩
    | true =>
      obtain ⟨st, hc, hr, hl⟩ := p.readWord_readable pos ⟨hv, h pos List.mem_cons_self hv⟩
      obtain ⟨st', hc', hr'⟩ := ih { p with store := st } (hl l htail)
      exact ⟨st', hc.trans hc', by rw [Part.readWords, hr]; exact hr'⟩

theorem Store.recordValid_corrected {a b : Store} (h : a.Corrected b) (r : RecordId) : b.recordValid r = a.recordValid r := by
  simp [Store.recordValid, h.valid]

/-- Words of CONFIG read for a block, none of them broken (R6). -/
theorem Part.readConfig_whole (p : Part) (ks : List Nat) (h : p.store.WholeAt (ks.map RecordId.config.pos)) :
    ∃ st, p.store.Corrected st ∧ p.readConfig ks =
      (if p.store.recordValid .config then some (ks.map fun k => (p.store.word (RecordId.config.pos k)).fields) else none,
       { p with store := st }) := by
  obtain ⟨st, hc, hr⟩ := Part.readWords_whole _ p h
  refine ⟨st, hc, ?_⟩
  simp only [Part.readConfig, hr, Store.recordValid_corrected hc]
  split <;> simp_all [hc.fields]

@[simp] theorem Store.word_put (st : Store) (pos q : Fin 82) (fs : List Nat) :
    (st.put pos fs).word q = if q = pos then { fields := fs, codePos := pos.val, flips := .whole, valid := true } else st.word q :=
  Store.word_setWord _ _ _ _

/-- R155 step 5: a word just stored can be read. -/
theorem Store.put_readable (st : Store) (pos : Fin 82) (fs : List Nat) : (st.put pos fs).Readable pos := by
  constructor <;> simp [StoreWord.broken]

end Sys2Proof.Machine
end

