-- ==== Sys2Proof/Tests/Slice0.lean ====
section
/-! SUPPORT. Tests: ill-formed commands are refused; frames written out byte by byte decode to their commands; the spec's
worked cases; and for each obligation with hypotheses a state and operands that meet them all (`met_<obligation>`). -/

namespace Sys2Proof.Tests

open Machine

/-! ## Well-formedness (R167, R169) -/

theorem test_wellFormed_refuses_short_parameters :
    (Instr.writeRecord 1#8 0#4 0#2 false 0#8 0#16 (List.replicate 23 0#8)).wellFormed = false := by decide

/-- Code 1 is READ_RECORD's, code 3 MOTOR_CMD's. -/
theorem test_wellFormed_refuses_known_code : (Instr.badRequest 1#8 (.request 1#8)).wellFormed = false ∧
    (Instr.badRequest 1#8 (.request 3#8)).wellFormed = false := by decide

theorem test_wellFormed_takes_both :
    (Instr.writeRecord 1#8 0#4 0#2 false 0#8 0#16 (List.replicate 24 0#8)).wellFormed = true ∧
      (Instr.badRequest 1#8 (.request 7#8)).wellFormed = true ∧ (Instr.badRequest 1#8 (.action 2#4)).wellFormed = true := by decide

/-! ## Frames (R163, R173): the bytes written out, the check computed outside the model by long division of the 272 bits,
the first sixteen inverted, by x^16 + x^12 + x^5 + 1 -/

/-- 34 bytes, the given ones and zeros, and the two bytes of a check. -/
def frame (bytes : List Byte) (check : BitVec 16) : List Byte := bytes ++ List.replicate (34 - bytes.length) 0#8 ++ bytes16 check

theorem test_frame_idle : decodeFrame (frame [] 0xA9B8#16) = .idleFrame := by decide +kernel

/-- ARM of motor 1, tag 0x55: MGMT kind 2; tag, code 3, target A 1, target B 0 (R173). -/
theorem test_frame_arm : decodeFrame (frame [2#8, 0#8, 0#8, 0#8, 0x55#8, 3#8, 1#8, 0#8] 0x7F5D#16) = .arm 0x55#8 1#4 := by decide +kernel

/-- WRITE_RECORD of PROFILE 1's last segment: A = last flag, segment 2, region 3 (R173). -/
theorem test_frame_write :
    decodeFrame (frame ([2#8, 0#8, 0#8, 0#8, 9#8, 2#8, 0xA3#8, 1#8, 0xF0#8, 0x01#8] ++ List.replicate 24 7#8) 0x64BC#16) =
      .writeRecord 9#8 3#4 2#2 true 1#8 0xF001#16 (List.replicate 24 7#8) := by decide +kernel

/-- SETPOINT (R173): stream, two header bytes, tag, flags, apply-at, three duties. -/
theorem test_frame_setpoint :
    decodeFrame
        (frame [1#8, 18#8, 0xAB#8, 0xCD#8, 52#8, 1#8, 40#8, 0x60#8, 0x00#8, 0x40#8, 0x00#8, 0x19#8, 0x9A#8] 0x1CCF#16) =
      .setpoint 18#8 0xABCD#16 52#8 (some 40#8) 24576#16 16384#16 6554#16 := by decide +kernel

theorem test_frame_bad_kind : decodeFrame (frame [3#8] 0x1DF6#16) = .badFrame .kind := by decide +kernel

theorem test_frame_bad_check : decodeFrame (frame [] 0xA9B9#16) = .badFrame .check := by decide +kernel

/-- A MOTOR_CMD for motor 2 with target B 7, no action: the check is that of the bytes, worked out outside the model. -/
theorem test_frame_unknown_action :
    decodeFrame (frame [2#8, 0#8, 0#8, 0#8, 0x55#8, 3#8, 2#8, 7#8] 0x78D3#16) = .badRequest 0x55#8 (.action 2#4) := by
  decide +kernel

/-- R162: the first bit is the most significant one of byte 0; 287 bits are an aborted transfer, bits after 288 are nothing. -/
theorem test_transfer_bits :
    decodeTransfer (((frame [] 0xA9B8#16).map byteBits).flatten ++ [true, true]) = .idleFrame ∧
      decodeTransfer (((frame [] 0xA9B8#16).map byteBits).flatten.take 287) = .abortedTransfer ∧
      bytesOfBits [true, false, false, false, false, false, true, false] = [0x82#8] := by decide +kernel

theorem test_frame_aborted : decodeFrame (List.replicate 35 0#8) = .abortedTransfer := by decide

/-! ## Worked cases of the spec -/

/-- Chapter 1, the drum following SYNC, cycles 1, 4 and 8: error and adjustment. -/
theorem test_sync_adjustments :
    [300, 220, 60].map (fun q => (syncError 5000 q 100, syncAdjust (syncError 5000 q 100) 150 40)) =
      [(200, 40), (120, 40), (-40, -40)] := by decide

/-- Chapter 1, trim held back by the tail. -/
theorem test_trim_held_back : appliedTrim (-100) 5000 4930 = -69 := by decide

/-- Chapter 4, duty to width. -/
theorem test_duty_to_width :
    [0, 1000, 2048, 6554, 16384, 24576, 31000, 32000, 32768].map (fun d => pulseOf (clampWidth (widthOf d 5000) 5000 200) 5000) =
      [⟨0, 2500, 2500⟩, ⟨0, 2500, 2500⟩, ⟨313, 2343, 2656⟩, ⟨1000, 2000, 3000⟩, ⟨2500, 1250, 3750⟩, ⟨3750, 625, 4375⟩,
       ⟨4730, 135, 4865⟩, ⟨5000, 0, 5000⟩, ⟨5000, 0, 5000⟩] := by decide

/-- The planner's input of chapter 4's cases. -/
def case4 : PlanInput := { p := 5000, dt := 80, pmin := 200, st := 240, shmax := 400, dueA := true, dueB := true }

/-- Chapter 4, case 1: both windows open, no shift. -/
theorem test_plan_case1 :
    let r := planSine case4 ⟨24576, 16384, 6554⟩
    r.winA = some (969, 1249) ∧ r.winB = some (1594, 1999) ∧ r.a = ⟨0, false⟩ ∧ r.b = ⟨0, false⟩ := by decide

/-- Chapter 4, cases 2 (SHMAX 400 and 200), 3, 4 and 5: the shifts, the pulse that each moves, the windows and the figure E. -/
theorem test_plan_shifts :
    (let r := planSine case4 ⟨17000, 16384, 6554⟩
     r.a = ⟨298, false⟩ ∧ r.b = ⟨0, false⟩ ∧ r.pulse.u = ⟨2594, 905, 3499⟩ ∧ r.winA = some (1249, 1249) ∧
      r.winB = some (1594, 1999) ∧ r.figE = 3830) ∧
    (let r := planSine { case4 with shmax := 200 } ⟨17000, 16384, 6554⟩
     r.a = ⟨0, true⟩ ∧ r.pulse.u = ⟨2594, 1203, 3797⟩ ∧ r.winA = none ∧ r.winB = some (1594, 1999) ∧ r.figE = 3877) ∧
    (let r := planSine case4 ⟨24576, 16384, 14000⟩
     r.b = ⟨163, false⟩ ∧ r.pulse.w = ⟨2136, 1595, 3731⟩ ∧ r.winA = some (969, 1249) ∧ r.winB = some (1594, 1594)) ∧
    (let r := planSine case4 ⟨2000, 1950, 0⟩
     r.a = ⟨341, false⟩ ∧ r.pulse.u = ⟨305, 2006, 2311⟩ ∧ r.winA = none ∧ r.winB = none) ∧
    (let r := planSine case4 ⟨32000, 20000, 9000⟩
     r.winA = none ∧ r.winB = some (1318, 1812) ∧ r.figE = 4106 ∧ r.fulls = 1 ∧
      r.edges.map (fun e => (e.carrierTime, e.phase)) = [(974, .v), (1054, .v), (1813, .w), (1893, .w), (3186, .w), (3266, .w),
        (4026, .v), (4106, .v)]) := by decide

/-- Chapter 6, a leg pair straddling two periods, and one that is unmeasurable. -/
theorem test_leg_windows :
    let i : FinderInput :=
      { p := 5000, len := 5000, dt := 80, st := 240, motorPriority := 0, channels := .const 0, offsets := .const 0
        voltages := .const 0, busChannel := 0 }
    legWindow i ⟨211, 1737, 2118⟩ (some ⟨⟨4789, 3263, 2881⟩, .const .between, 5000⟩) = some (0, 0, 1736) ∧
      legWindow i ⟨104, 135, 165⟩ (some ⟨⟨4895, 4865, 4834⟩, .const .between, 5000⟩) = none := by decide

/-- Chapter 6, the values of that leg pair. -/
theorem test_leg_values :
    legReadings [.v, .w] ⟨132, false, false⟩ ⟨-93, false, false⟩ =
      [⟨-39, false, true⟩, ⟨132, false, false⟩, ⟨-93, false, false⟩] := by decide

/-- Chapter 5, a lost crossing in CLOSED: both crossings, and the second step interval with f = 1. -/
theorem test_crossings :
    interpolate ⟨-60, 400000#32⟩ 140 405000#32 = 401500#32 ∧ interpolate ⟨-30, 641000#32⟩ 70 646000#32 = 642500#32 ∧
      stepInterval 642500#32 401500#32 1 40000 2000000 = 120500 := by decide

/-- Chapter 5, edges rewritten in mid-period: the list after the commutation at carrier time 2000. -/
theorem test_edges_rewritten :
    rewriteEdges 5000 2000 (pulseOf 2500 5000) (rolesOf 1) (rolesOf 2) true
        [⟨1250, .u, .high, true, true⟩, ⟨3750, .u, .high, false, false⟩] =
      [⟨1250, .u, .high, true, true⟩, ⟨2000, .u, .high, false, false⟩, ⟨2000, .v, .high, true, false⟩,
       ⟨3750, .v, .high, false, false⟩] := by decide

/-- Chapter 8, one drum frame: its body in the layout of R173. -/
theorem test_sample_body :
    ({ motor := .i0, period := 40#8, stream := 50#8, tag := 52#8, outcome := .new, overrun := false, stale := false
       step := none, crossing := false, commutated := false, shift := false, valley := 800000#32
       entries := [⟨7#8, some .u, false, false, false, false, true, -39⟩, ⟨7#8, some .v, false, false, false, false, false, 132⟩,
         ⟨7#8, some .w, false, false, false, false, false, -93⟩, ⟨9#8, none, false, false, false, false, false, 3010⟩] } :
      SampleFrame).body =
      [0x9C#8, 40#8, 52#8, 0#8, 0x35#8, 0x00#8, 7#8, 0x41#8, 0xFF#8, 0xD9#8, 7#8, 0x02#8, 0x00#8, 0x84#8, 7#8, 0x03#8, 0xFF#8,
       0xA3#8, 9#8, 0x00#8, 0x0B#8, 0xC2#8] := by decide

/-- Chapter 11, acceptance entries: 18 matches entry 0, 17 too, 40 matches entry 2, 64 none. -/
theorem test_acceptance :
    [18#8, 17#8, 40#8, 64#8].map (fun x => [[1, 16, 252, 0], [1, 17, 255, 3], [1, 32, 240, 1]].map (entryMatches · x)) =
      [[true, false, false], [true, true, false], [false, false, true], [false, false, false]] := by decide

/-- R165 and R164 at the bounds: the 64th good frame in LOST; 248 and 120 raised by a bad frame. -/
theorem test_link_bounds :
    ({ Link.initial with errors := 256, recovery := 63 }.recover).state = .active ∧
      ({ Link.initial with errors := 248 }.raiseErrors).state = .lost ∧
      ({ Link.initial with errors := 120 }.raiseErrors).degradedEntries = 1 := by decide

/-! ## States for the hypotheses of the obligations -/

/-- No notice and no complete schedule, as a computation. -/
def quietB (p : Part) : Bool :=
  p.outbox.isEmpty && Ix3.all.all fun m => ((p.motor m).scheds.latest.toList ++ (p.motor m).scheds.older).all fun sc => !sc.complete

theorem quiet_of {p : Part} (h : quietB p = true) : p.Quiet := by
  simp only [quietB, Ix3.all, Bool.and_eq_true, List.isEmpty_iff, List.all_cons, List.all_nil, Bool.and_true,
    List.all_eq_true, Bool.not_eq_eq_eq_not, Bool.not_true] at h
  exact ⟨h.1, fun m => match m with
    | .i0 => h.2.1
    | .i1 => h.2.2.1
    | .i2 => h.2.2.2⟩

/-- What Motor.Fits says, as a computation. -/
def fitsB (q : Motor) : Bool :=
  let st := q.slot.state
  let run := st == .running
  let driven := run || st == .startPending
  (!q.slot.park || run) && (q.slot.stopCause.isSome == (st == .safeStop)) && (q.slot.start.isSome == (st == .startPending)) &&
    (q.slot.fault.isSome == (st == .tripped || st == .lockedOut)) && (st != .off || q.slot.copies == none) &&
    (st == .off || st == .lockedOut || q.slot.copies.isSome) && (q.pace.carrier.isSome == run) && (!q.seqr.run.isSome || run) &&
    (q.pace.trim == 0 || driven) && (q.setq.recs == [] || driven || st == .ready)

theorem fits_of {q : Motor} (h : fitsB q = true) : q.Fits := by
  simp only [fitsB, Bool.and_eq_true] at h
  obtain ⟨⟨⟨⟨⟨⟨⟨⟨⟨h1, h2⟩, h3⟩, h4⟩, h5⟩, h6⟩, h7⟩, h8⟩, h9⟩, h10⟩ := h
  cases hs : q.slot.state <;> simp [hs] at h1 h2 h3 h4 h5 h6 h7 h8 h9 h10 <;>
    constructor <;> simp_all

theorem allFit_of {p : Part} (h : (fitsB p.motors.i0 && fitsB p.motors.i1 && fitsB p.motors.i2) = true) : p.Fits := by
  simp only [Bool.and_eq_true] at h
  intro m
  cases m
  · exact fits_of h.1.1
  · exact fits_of h.1.2
  · exact fits_of h.2

/-- The words of the tables of the demonstration: motor 0 is a drum in SINE with LEG3, motor 1 a pump in BLOCK with one
BLOCK_ON entry, motor 2 a drum again. -/
def drumWords (n : Nat) : List (List Nat) :=
  [[0, 0, 0, 0], [1250 * n], [80, 200], [240, 400], [0, 1, 2], [3, 4, 5], [2048, 2048], [2048, 1, 1, 1], [1000, 100], [4, 3],
   [8192, 2], [20000, 16], [10000, 3], [5000, 2], [60000], [2, 50]]

def pumpWords : List (List Nat) := [1, 1, 0, 0] :: (drumWords 1).tail

def tableWords : List (List Nat) :=
  [[5000], [1, 100], [150, 40], [6, 4000], [100], [1400, 3300], [40, 1, 1], [9]] ++
    [[1, 16, 252, 0], [1, 17, 255, 3], [1, 32, 240, 1], [1, 64, 255, 3], [0, 0, 0, 3], [0, 0, 0, 3], [0, 0, 0, 3], [0, 0, 0, 3]] ++
    drumWords 1 ++ pumpWords ++ drumWords 2 ++
    [[1, 0, 7, 0, 0, 0, 0, 0], [0, 0, 0, 0, 0, 0, 0, 0], [0, 0, 0, 0, 0, 0, 0, 0], [0, 0, 0, 0, 0, 0, 0, 0],
     [0, 0, 0, 0, 0, 0, 0, 0], [0, 0, 0, 0, 0, 0, 0, 0], [1, 3, 8, 0, 0, 0, 0, 0]] ++
    List.replicate 11 [0, 0, 0, 0, 0, 0, 0, 0]

/-- A word of the demonstration's store. -/
def demoWord (i : Fin 82) : StoreWord := { fields := tableWords.getD i.val [], codePos := i.val, flips := .whole, valid := true }

def demoStore : Store := { Store.initial with words := .ofFn demoWord }

theorem demo_word (pos : Fin 82) : demoStore.word pos = demoWord pos := by simp [demoStore, Store.word]

theorem demo_readable (l : List (Fin 82)) : demoStore.ReadableAll l := fun pos _ => by
  constructor <;> simp [demo_word, demoWord, StoreWord.broken]

theorem demo_one (pos : Fin 82) : demoStore.Readable pos := demo_readable [pos] pos (List.mem_singleton.2 rfl)

theorem demo_valid (r : RecordId) : demoStore.recordValid r = true := by
  simp [Store.recordValid, demo_word, demoWord]

theorem demo_whole (l : List (Fin 82)) :
    ∀ pos ∈ l, (demoStore.word pos).valid = true → (demoStore.word pos).broken pos = false := fun pos h _ =>
  (demo_readable l pos h).2

/-- The part with the demonstration's store, a P of 5000 and the time base at a tick and a position. -/
def demo (tick : Tick) (pos : Nat) : Part :=
  { Part.poweredOn true (.const true) with
    store := demoStore, tb := { Timebase.initial 5000 with tick := tick, pos := pos } }

/-- A state with a part and nothing waiting. -/
def st (p : Part) : State := ⟨p, []⟩

/-- A motor in a state with the gate copies of ARM. -/
def motorIn (state : MotorState) : Motor :=
  { Motor.initial true with slot := { SlotBlock.initial with state := state, copies := some ⟨80, .lowBrake, .lowBrake⟩ } }

/-- A RUNNING motor: valley at 1250, period 7, length 5000, and its schedule. -/
def runningMotor (drive : Drive) (edges : List Edge) (reqs : List Request) (run : Option SeqRun) : Motor :=
  { motorIn .running with
    pace := { Pace.initial with carrier := some ⟨1250#32, 7#8, 5000⟩ }
    seqr := { Sequencer.initial with run := run }
    scheds := { latest := some { id := 3, period := 7#8, valley := 1250#32, len := 5000, tag := 0#8, outcome := .new
                                 overrun := false, stale := false, stream := 50#8, drive := drive, edges := edges
                                 reqs := reqs, handed := false }
                older := [] } }

/-- The drum: one edge list entry at carrier time 625. -/
def drum : Motor :=
  runningMotor (.sine (.const ⟨3750, 625, 4375⟩) 0 0) [⟨625, .u, .low, false, false⟩, ⟨705, .u, .high, true, false⟩] [] none

/-- The pump in CLOSED or another sub-phase, step 1. -/
def pump (data : SubData) (sched : Option SchedComm) (timeout : Option Tick) : Motor :=
  runningMotor (.block 1 ⟨2500, 1250, 3750⟩ [] false) [] []
    (some { dir := .forward, step := 1, pulse := ⟨2500, 1250, 3750⟩, data := data
            search := some ⟨1250#32, true, none⟩, stepConfirmed := false, sched := sched, post := none, timeout := timeout
            opening := [] })

/-- The demonstration with motor m replaced. -/
def withMotor (tick : Tick) (pos : Nat) (m : Slot) (q : Motor) : Part := { demo tick pos with motors := (demo tick pos).motors.set m q }

/-- A part fit to serve a management frame. -/
theorem serving {p : Part} (room : Nat) (he : p.en = true) (ht : p.up.transfer ≠ .ignored) (hl : p.link.errors < 256)
    (hq : quietB p = true) (hn : p.up.queue = []) (hc : p.up.transfer.queuedId = none) (hr : room ≤ 8) : p.Serving room :=
  { en := he, taken := ht, notLost := hl, quiet := quiet_of hq
    numbered := ⟨by simp [hn], by simp [hn], by simp [hc]⟩
    room := by simp [hn, hr] }

/-! ## The hypotheses of each obligation are met -/

theorem met_TimedCommandComesAtItsInstant :
    let p := { demo 10#32 10 with sampler := { Sampler.initial with busPlan := .done } }
    p.en = true ∧ p.delay (.holdEligible .i0) = some 14 ∧ p.noneBefore 14 = true := by decide +kernel

theorem met_EnLowTakesNothing : (Part.poweredOn false (.const true)).en = false ∧ (Part.poweredOn false (.const true)).HeldOff ∧
    (∀ e pins, Instr.enFall ≠ .powerOn e pins) ∧ ∀ pins, Instr.enFall ≠ .enableReset pins := by
  refine ⟨rfl, ⟨?_, fun _ => .inl rfl⟩, by simp, by simp⟩
  intro m _ x g
  cases m <;> cases x <;> cases g <;> exact ⟨rfl, rfl⟩

theorem met_DecodeOfEncodedFrame : ∃ f, (Instr.arm 1#8 2#4).wellFormed = true ∧ encodeFrame (.arm 1#8 2#4) = some f := ⟨_, rfl, rfl⟩

/-- A state that meets every invariant the steps keep: the drum runs with a LOW gate on. -/
def inRun : State :=
  { part := withMotor 1300#32 1300 .i0
      { drum with gates := (GateStage.initial.setGate .u .low { Gate.initial with on := true, settled := true }) }
    pending := [.syncEdge] }

theorem met_step : ∃ t, step inRun = .next t := ⟨_, rfl⟩

theorem met_NoShootThroughKept : inRun.part.NoShootThrough := by
  intro m x
  cases m <;> cases x <;> decide

theorem met_UndrivenGatesStayOff : inRun.part.HeldOff := by
  refine ⟨?_, fun h => absurd h (by decide)⟩
  intro m h x g
  cases m
  · exact absurd h (by decide)
  all_goals cases x <;> cases g <;> exact ⟨rfl, rfl⟩

theorem met_SlotFieldsFitTheMotorState : inRun.part.Fits := allFit_of (by decide)

theorem met_SampleFramesConserved : inRun.part.up.Conserved := by
  refine ⟨⟨?_, ?_, ?_⟩, fun _ => by decide⟩
  · intro f h
    exact absurd h List.not_mem_nil
  · decide
  · intro id h
    exact nomatch (show (none : Option Nat) = some id from h)

theorem met_FifoMatchesHolds : inRun.part.sampler.Matched := by
  refine ⟨fun e h => absurd h List.not_mem_nil, ?_, by decide, by decide⟩
  intro h hh
  cases h <;> exact absurd hh (by decide)

theorem met_QueuesAndScoreBounded : inRun.part.Bounded :=
  ⟨by decide, fun m => by cases m <;> decide, by decide, by decide⟩

theorem met_CompleteSchedulesAreHandedOn : inRun.part.Quiet := quiet_of (by decide)

theorem met_PeriodStaysInRange : inRun.part.PeriodInRange := by
  refine ⟨by decide, fun _ => ?_⟩
  rw [show inRun.part.store = demoStore from rfl, demo_word]
  decide

/-- The drum at its valley with a turn-on of V's LOW gate pending. -/
def pendState : State :=
  { part := withMotor 1300#32 1300 .i0
      { drum with gates := (GateStage.initial.setGate .v .low { Gate.initial with pend := some ⟨1290#32, true⟩ }) }
    pending := [.pendingTurnOn .i0 .v .low] }

theorem met_DeadGapBeforeEveryTurnOn : ∃ t, step pendState = .next t ∧
    ((pendState.part.motor .i0).gates.gateAt .v .low).on = false ∧ ((t.part.motor .i0).gates.gateAt .v .low).on = true :=
  ⟨_, rfl, by decide, by decide +kernel⟩

/-- A duty in each row of R52's table, at the bounds of the rows (widths 0, 199, 200, 4800, 4801, 5000), and a width of
1000 and one of 1023 where PMIN is 1023 and P is 2000. -/
theorem met_PulsesAreCentred : 5000 % 2 = 0 ∧ 2000 % 2 = 0 ∧ 2 * 80 + 2 ≤ 200 ∧
    [0, 1304, 1311, 31457, 31464, 32768].map (widthOf · 5000) = [0, 199, 200, 4800, 4801, 5000] ∧
    [0, 199, 200, 4800, 4801, 5000].map (clampWidth · 5000 200) = [0, 0, 200, 4800, 5000, 5000] ∧
    [16384, 16761].map (widthOf · 2000) = [1000, 1023] ∧ [1000, 1023].map (clampWidth · 2000 1023) = [0, 2000] := by decide

/-- The duties of case 2, whose widths 2594, 2500 and 1000 stand in the order U, V, W; and three equal ones. -/
theorem met_PlannedEdgesEndBeforeThePeriod : ∀ duty ∈ [(⟨17000, 16384, 6554⟩ : PerPhase Nat), .const 16384],
    case4.p % 2 = 0 ∧ 2000 ≤ case4.p ∧ 2 * case4.dt + 2 ≤ case4.pmin ∧ (∀ x, duty.get x ≤ 32768) ∧
    let w := fun x => clampWidth (widthOf (duty.get x) case4.p) case4.p case4.pmin
    (w .v < w .u ∨ (w .v = w .u ∧ Phase.u.toNat < Phase.v.toNat)) ∧
      (w .w < w .v ∨ (w .w = w .v ∧ Phase.v.toNat < Phase.w.toNat)) := by
  intro duty h
  refine ⟨by decide, by decide, by decide, ?_, ?_, ?_⟩
  · intro x
    fin_cases h <;> cases x <;> decide
  · fin_cases h <;> decide
  · fin_cases h <;> decide

/-- A request of each kind; the leg pair V, W leaves U out. -/
theorem met_CrossingInstantsAndRequestValues : (⟨-60, 400000#32⟩ : PrevSample).x ≠ 0 ∧ Phase.v.toNat < Phase.w.toNat ∧
    Phase.u ≠ .v ∧ Phase.u ≠ .w ∧ (∀ o ∈ [2048, 4095], o ≤ 4095) ∧
    ∀ k ∈ [PlanKind.linkA, .linkB, .blockOn, .auxValley, .auxPeak, .legPair],
      ∃ r : Request, r.kind = k ∧ r.legs = [.v, .w] ∧ r.offsets = [2048, 4095] :=
  ⟨by decide, by decide, by decide, by decide, by decide, fun k _ =>
    ⟨{ entry := 0, tag := 7#8, kind := k, priority := 1, motorPriority := 1, channels := [1, 2], offsets := [2048, 4095]
       legs := [.v, .w], phases := [], window := none, status := .frozen, frozenAt := none, deferred := false, codes := []
       readings := [], joined := true, stayed := true, inStep := false }, rfl, rfl, rfl⟩⟩

theorem met_serving : (demo 0#32 0).Serving 1 ∧ (demo 0#32 0).link.errors < 128 :=
  ⟨serving 1 rfl (by decide) (by decide) (by decide) rfl rfl (by decide), by decide⟩

/-- For ResetCausesRecorded, StatusPagesAreAnswered and ClearCountsClearsTheSection. -/
theorem met_ResetCausesRecorded : (demo 0#32 0).Serving 1 ∧ (demo 0#32 0).link.errors < 128 := met_serving

theorem met_PowerOnAndEnableResetTheBlocks : ((demo 0#32 0).store.word 0).broken 0 = false := (demo_one 0).2

/-- R139: an enable reset in a transfer ends it; its frame end comes later and is ignored (log 21). -/
theorem test_reset_cuts_the_transfer :
    (match exec (.enableReset (.const true)) (st { demo 0#32 0 with up := { Upstream.initial with
        transfer := .active .idle [] false false, unconsumed := 3, dropped := true } }) with
    | .next t => (t.part.up.transfer, t.part.up.unconsumed, t.part.up.dropped)
    | .fault _ | .refused _ => (.absent, 1, true)) = (.ignored, 0, false) := by decide +kernel

theorem met_EnFallTurnsEveryGateOff : inRun.part.en = true := rfl

/-- One motor LOCKED_OUT, the others not. -/
theorem met_ResetPartKeepsLockout :
    let p := withMotor 0#32 0 .i0 (motorIn .lockedOut)
    p.Serving 1 ∧ p.link.errors < 128 ∧ (p.store.word 0).broken 0 = false ∧ (p.motor .i0).slot.state = .lockedOut ∧
      (p.motor .i1).slot.state ≠ .lockedOut :=
  ⟨serving 1 rfl (by decide) (by decide) (by decide) rfl rfl (by decide), by decide, (demo_one 0).2, by decide, by decide⟩

/-- The demonstration at the end of a cycle with a capture. -/
def cycleEnded (q : Nat) : Part :=
  { demo 5000#32 4999 with
    tb := { Timebase.initial 5000 with tick := 5000#32, pos := 4999, endDue := true, capture := some q } }

/-- An error of CAPTURE (150), of one more, and one brought below the half of P. -/
theorem met_MasterCycleEndTurnsTheCycle : ∀ qe ∈ [(250, 150), (251, 151), (2600, 2500), (2601, -2499)],
    let p := cycleEnded qe.1
    p.en = true ∧ p.tb.endDue = true ∧ p.Quiet ∧ p.store.recordValid .config = true ∧ p.store.ReadableAll [1, 2] ∧
      ((p.store.word p.store.scrubPos).valid = true → (p.store.word p.store.scrubPos).broken p.store.scrubPos = false) ∧ field (p.store.word 1).fields 0 = 1 ∧ p.tb.capture = some qe.1 ∧
      ((qe.2 : Int) = (qe.1 : Int) - 100 ∨ qe.2 = (qe.1 : Int) - 100 - 5000 ∨ qe.2 = (qe.1 : Int) - 100 + 5000) ∧
      -(2500 : Int) < qe.2 ∧ qe.2 ≤ 2500 ∧ field (p.store.word 1).fields 1 = 100 ∧ field (p.store.word 2).fields 0 = 150 := by
  intro qe h p
  have hs : p.store = demoStore := rfl
  refine ⟨rfl, rfl, quiet_of rfl, ?_, ?_, ?_, ?_, rfl, ?_, ?_, ?_, ?_, ?_⟩
  · rw [hs]
    exact demo_valid _
  · rw [hs]
    exact demo_readable _
  · rw [hs]
    exact fun _ => (demo_one _).2
  · rw [hs, demo_word]
    decide
  · fin_cases h <;> decide
  · fin_cases h <;> decide
  · fin_cases h <;> decide
  · rw [hs, demo_word]
    decide
  · rw [hs, demo_word]
    decide

/-- No capture with sync enabled; a CONFIG that is not valid; a bus request whose position is still to come. -/
theorem met_MasterCycleEndTurnsTheCycle_missing :
    (let p := { cycleEnded 0 with tb := { (cycleEnded 0).tb with capture := none } }
     p.en = true ∧ p.tb.endDue = true ∧ p.Quiet ∧ p.store.ReadableAll [1, p.store.scrubPos] ∧
      (∀ m, (p.motor m).pace.trim.natAbs ≤ 1023) ∧ p.store.recordValid .config = true ∧
      field (p.store.word 1).fields 0 ≠ 0 ∧ p.tb.capture = none) ∧
    (let p := { Part.poweredOn true (.const true) with tb := (cycleEnded 3).tb }
     p.en = true ∧ p.tb.endDue = true ∧ p.Quiet ∧ (∀ pos, (p.store.word pos).valid = false) ∧
      (∀ m, (p.motor m).pace.trim.natAbs ≤ 1023) ∧ p.store.recordValid .config = false) ∧
    ({ cycleEnded 0 with sampler := { Sampler.initial with busPlan := .at 4000 } } : Part).sampler.busPlan = .at 4000 := by
  refine ⟨⟨rfl, rfl, quiet_of rfl, demo_readable _, fun m => by cases m <;> decide, demo_valid _, ?_, rfl⟩,
    ⟨rfl, rfl, quiet_of rfl, fun pos => ?_, fun m => by cases m <;> decide, by decide⟩, rfl⟩
  · rw [show (cycleEnded 0).store = demoStore from rfl, demo_word]
    decide
  · simp [Part.poweredOn, Store.word, Store.initial]

theorem met_SyncEdgeIsStamped : (demo 0#32 0).en = true ∧ (demo 0#32 0).tb.capture = none ∧ (cycleEnded 3).tb.capture = some 3 := by
  decide

/-! ### Valleys and gates -/

theorem demo_valley (m : Slot) (tick : Tick) (pos : Nat) (q : Motor) : (withMotor tick pos m q).ValleyReadable m :=
  demo_readable _

theorem demo_range (m : Slot) (tick : Tick) (pos : Nat) (q : Motor) : (withMotor tick pos m q).PeriodInRange := by
  refine ⟨(by decide : 2000 ≤ 5000 ∧ 5000 ≤ 16000 ∧ 5000 % 2 = 0), fun _ => ?_⟩
  rw [show (withMotor tick pos m q).store = demoStore from rfl, demo_word]
  decide

/-- A motor that waits for its first valley at position 1250. -/
def waiting : Motor :=
  let q := motorIn .startPending
  { q with slot := { q.slot with start := some ⟨.ready, 1250, false⟩ } }

/-- The drum (SINE) and the pump (BLOCK) at their carrier offset. -/
theorem met_FirstValleyBeginsTheRun : ∀ m ∈ [Ix3.i0, .i1],
    let p := withMotor 1250#32 1250 m waiting
    p.en = true ∧ p.Quiet ∧ p.Fits ∧ p.PeriodInRange ∧ (p.motor m).slot.state = .startPending ∧
      (p.motor m).slot.start = some ⟨.ready, 1250, false⟩ ∧ p.tb.endDue = false ∧ p.tb.pos = 1250 ∧ 1250 < p.tb.len ∧
      p.ValleyReadable m ∧ p.NotStarved m 0#8 := by
  intro m h p
  refine ⟨rfl, quiet_of ?_, allFit_of ?_, demo_range _ _ _ _, ?_, ?_, rfl, rfl, ?_, demo_valley _ _ _ _, ?_⟩
  all_goals fin_cases h <;> first
    | decide
    | (intro _
       rw [show (withMotor 1250#32 1250 _ waiting).store = demoStore from rfl]
       simp only [Store.profileWord, demo_word]
       decide)

/-- Offset 0 at the end of a cycle, before the end is taken. -/
theorem met_FirstValleyBeginsTheRun_cycleEnd :
    let q := { waiting with slot := { waiting.slot with start := some ⟨.safeStop, 0, false⟩ } }
    let p := { withMotor 5000#32 4999 .i0 q with tb := (cycleEnded 3).tb }
    p.en = true ∧ p.Quiet ∧ p.Fits ∧ p.PeriodInRange ∧ (p.motor .i0).slot.state = .startPending ∧
      (p.motor .i0).slot.start = some ⟨.safeStop, 0, false⟩ ∧ p.tb.endDue = true ∧ p.ValleyReadable .i0 ∧
      p.NotStarved .i0 0#8 := by
  refine ⟨rfl, quiet_of (by decide), allFit_of (by decide), ⟨by decide, (demo_range .i0 0#32 0 drum).2⟩, rfl, rfl, rfl,
    demo_valley .i0 0#32 0 drum, ?_⟩
  intro _
  rw [show (Part.store _) = demoStore from rfl]
  simp only [Store.profileWord, demo_word]
  decide

/-- The drum, and the pump in ALIGN below and at ALIGN_PERIODS, at their next valley. -/
theorem met_ValleyBeginsTheNextPeriod :
    ∀ mq ∈ [(Ix3.i0, drum), (Ix3.i1, pump (.align 1) none none), (Ix3.i1, pump (.align 2) none none)],
    let p := withMotor 6250#32 1250 mq.1 mq.2
    p.en = true ∧ p.Quiet ∧ p.PeriodInRange ∧ (p.motor mq.1).slot.state = .running ∧ (p.motor mq.1).slot.park = false ∧
      (p.motor mq.1).pace.carrier = some ⟨1250#32, 7#8, 5000⟩ ∧ later 1250#32 5000 = p.now ∧ p.ValleyReadable mq.1 ∧
      p.NotStarved mq.1 8#8 := by
  intro mq h p
  refine ⟨rfl, quiet_of ?_, demo_range _ _ _ _, ?_, ?_, ?_, ?_, demo_valley _ _ _ _, ?_⟩
  all_goals fin_cases h <;> first
    | decide
    | (intro _
       rw [show (withMotor 6250#32 1250 _ _).store = demoStore from rfl]
       simp only [Store.profileWord, demo_word]
       decide)

theorem met_ParkIsTakenAndCompletes_valley :
    let q := { drum with slot := { drum.slot with park := true } }
    let p := withMotor 6250#32 1250 .i0 q
    p.en = true ∧ p.Quiet ∧ (p.motor .i0).slot.state = .running ∧ (p.motor .i0).slot.park = true ∧
      (p.motor .i0).pace.carrier = some ⟨1250#32, 7#8, 5000⟩ ∧ later 1250#32 5000 = p.now :=
  ⟨rfl, quiet_of (by decide), rfl, rfl, rfl, by decide⟩

/-- A queue starved once already, empty or with a record that is stale at period 8 and at period 0. -/
def hungry (q : Motor) (recs : List SetRec) : Motor := { q with setq := { q.setq with recs := recs, starved := 1 } }

def staleRecord : SetRec := ⟨9#8, some 255#8, .const 7#16⟩

/-- HOLD_LIMIT is 2 and one valley was starved already. -/
theorem met_SetpointQueueAtTheValley : ∀ recs ∈ [[], [staleRecord]],
    let p := withMotor 6250#32 1250 .i0 (hungry drum recs)
    p.en = true ∧ p.Quiet ∧ (p.motor .i0).slot.state = .running ∧ (p.motor .i0).slot.park = false ∧
      (p.motor .i0).pace.carrier = some ⟨1250#32, 7#8, 5000⟩ ∧ later 1250#32 5000 = p.now ∧
      p.store.Readable ((RecordId.profile .i0).pos 15) ∧
      ((p.motor .i0).setq.decide 8#8 (p.motor .i0).setq.recs).1 = .held ∧
      field (p.store.profileWord .i0 15) 0 ≤ (p.motor .i0).setq.starved + 1 ∧ field (p.store.profileWord .i0 15) 0 ≤ 255 := by
  intro recs h p
  refine ⟨rfl, quiet_of rfl, rfl, rfl, rfl, (by decide : later 1250#32 5000 = 6250#32), demo_one _, ?_, ?_, ?_⟩
  · fin_cases h <;> decide
  · rw [show p.store = demoStore from rfl, show (p.motor .i0).setq.starved = 1 from rfl]
    simp only [Store.profileWord, demo_word]
    decide
  · rw [show p.store = demoStore from rfl]
    simp only [Store.profileWord, demo_word]
    decide

/-- The same at the first valley. -/
theorem met_SetpointQueueAtTheValley_first : ∀ recs ∈ [[], [staleRecord]],
    let p := withMotor 1250#32 1250 .i0 (hungry waiting recs)
    p.en = true ∧ p.Quiet ∧ (p.motor .i0).slot.state = .startPending ∧
      (p.motor .i0).slot.start = some ⟨.ready, 1250, false⟩ ∧ p.tb.endDue = false ∧ p.tb.pos = 1250 ∧ 1250 < p.tb.len ∧
      p.store.Readable ((RecordId.profile .i0).pos 15) ∧
      ((p.motor .i0).setq.decide 0#8 (p.motor .i0).setq.recs).1 = .held := by
  intro recs h p
  exact ⟨rfl, quiet_of rfl, rfl, rfl, rfl, rfl, (by decide : 1250 < 5000), demo_one _, by fin_cases h <;> decide⟩

/-- An apply-at 0, 1, 127, 128 and 255 periods ahead of period 250. -/
theorem met_SetpointQueueAtTheValley_ahead :
    [250#8, 251#8, 121#8, 122#8, 249#8].map (fun a : Byte => (a.toNat + 256 - (250#8 : Byte).toNat) % 256) = [0, 1, 127, 128, 255] := by
  decide

/-- The queue there: due now, waiting at 1 and 127, stale at 128 and 255 with the next record judged; duties saturate. -/
theorem test_setpoint_decide :
    [250#8, 251#8, 121#8, 122#8, 249#8].map (fun a =>
      let d := SetQueue.initial.decide 250#8 [⟨9#8, some a, ⟨40000#16, 32768#16, 5#16⟩⟩, ⟨8#8, none, .const 7#16⟩]
      (d.1, d.2.applied, d.2.recs.length, d.2.stales)) =
    [(.new, ⟨9#8, ⟨32768, 32768, 5⟩⟩, 1, 0), (.waiting, ⟨0#8, .const 0⟩, 2, 0), (.waiting, ⟨0#8, .const 0⟩, 2, 0),
     (.new, ⟨8#8, .const 7⟩, 0, 1), (.new, ⟨8#8, .const 7⟩, 0, 1)] := by decide

/-- A turn-off at carrier time 625 and a turn-on at 705, each alone. -/
theorem met_EdgesAreMadeAtTheirInstant : ∀ te ∈ [(1875#32, (⟨625, .u, .low, false, false⟩ : Edge)), (1955#32, ⟨705, .u, .high, true, false⟩)],
    let p := withMotor te.1 1875 .i0 drum
    p.en = true ∧ p.Quiet ∧ (p.motor .i0).slot.state = .running ∧ (p.motor .i0).pace.carrier = some ⟨1250#32, 7#8, 5000⟩ ∧
      ∃ sc, (p.motor .i0).scheds.latest = some sc ∧ te.2 ∈ sc.edges ∧ te.2.made = false ∧
        te.2.dueAt 5000 = ticksFrom p.now 1250#32 ∧
        ∀ f ∈ sc.edges, f.made = false → f.dueAt 5000 = ticksFrom p.now 1250#32 → f = te.2 := by
  intro te h p
  refine ⟨rfl, quiet_of rfl, rfl, rfl, _, rfl, ?_⟩
  fin_cases h <;> decide

theorem met_EdgesAreMadeAtTheirInstant_pending : pendState.part.en = true ∧ pendState.part.Quiet ∧
    ((pendState.part.motor .i0).gates.gateAt .v .low).pend = some ⟨1290#32, true⟩ ∧
    ((pendState.part.motor .i0).gates.gateAt .v .high).on = false ∧
    ((pendState.part.motor .i0).gates.gateAt .v .high).gapOver pendState.part.now (pendState.part.motor .i0).dt = true :=
  ⟨rfl, quiet_of (by decide), by decide, by decide, by decide⟩

/-! ### Commutation -/

/-- The pump at carrier time 2000. -/
def pumpAt (q : Motor) : Part := withMotor 3250#32 3250 .i1 q

theorem pump_takes (data : SubData) (sched : Option SchedComm) (timeout : Option Tick) :
    ((pumpAt (pump data sched timeout)).motor .i1).TakesCommutation 3250#32 :=
  ⟨⟨1250#32, 7#8, 5000⟩, rfl, .inr ⟨by decide, _, rfl, by decide⟩⟩

/-- A RAMP interval above T_HANDOVER (10000), and one at it with RAMP_HOLD (2) not reached. -/
theorem met_RampCommutationMovesTheStep : ∀ th ∈ [(20000, 0), (10000, 0), (10001, 5)],
    let r := pump (.ramp th.1 0 th.2) (some ⟨3250#32, .ramp, false⟩) none
    let p := pumpAt r
    p.en = true ∧ p.Quiet ∧ (p.motor .i1).slot.state = .running ∧ (∃ u, (p.motor .i1).seqr.run = some u ∧
      u.data = .ramp th.1 0 th.2 ∧ u.sched = some ⟨p.now, .ramp, false⟩) ∧ (p.motor .i1).TakesCommutation p.now ∧
      p.store.ReadableAll [(RecordId.profile .i1).pos 11, (RecordId.profile .i1).pos 12, (RecordId.profile .i1).pos 13] ∧
      (th.1 ≠ field (p.store.profileWord .i1 12) 0 ∨ th.2 + 1 < field (p.store.profileWord .i1 13) 1) ∧
      (p.motor .i1).pace.carrier = some ⟨1250#32, 7#8, 5000⟩ ∧ (⟨1250#32, 7#8, 5000⟩ : Carrier).atNext p.now = false ∧
      (p.motor .i1).scheds.latest.isSome = true := by
  intro th h r p
  refine ⟨rfl, quiet_of rfl, rfl, ⟨_, rfl, rfl, rfl⟩, pump_takes _ _ _, demo_readable _, ?_, rfl, rfl, rfl⟩
  rw [show p.store = demoStore from rfl]
  simp only [Store.profileWord, demo_word]
  fin_cases h <;> decide

/-- A detected commutation at the instant of the next valley. -/
theorem met_ClosedCommutationsMoveTheStep_valley :
    let p := withMotor 6250#32 1250 .i1 (pump (.closed 2000#32 6000 0 0 3) (some ⟨6250#32, .detected, false⟩) none)
    p.en = true ∧ p.Quiet ∧ (p.motor .i1).slot.state = .running ∧ (∃ u, (p.motor .i1).seqr.run = some u ∧
      u.data = .closed 2000#32 6000 0 0 3 ∧ u.sched = some ⟨p.now, .detected, false⟩) ∧
      (p.motor .i1).pace.carrier = some ⟨1250#32, 7#8, 5000⟩ ∧ (⟨1250#32, 7#8, 5000⟩ : Carrier).atNext p.now = true ∧
      (p.motor .i1).TakesCommutation p.now :=
  ⟨rfl, quiet_of rfl, rfl, ⟨_, rfl, rfl, rfl⟩, rfl, by decide, ⟨⟨1250#32, 7#8, 5000⟩, rfl, .inl (by decide)⟩⟩

/-- The pump in step 1 with its pulse under way, U's HIGH gate and W's LOW gate on, and a request not yet at its instant. -/
def inPulse : Motor :=
  let gateOn := { Gate.initial with on := true }
  let q := runningMotor (.block 1 ⟨2500, 1250, 3750⟩ [] false) [⟨1250, .u, .high, true, true⟩, ⟨3750, .u, .high, false, false⟩]
    [{ entry := 0, tag := 7#8, kind := .auxPeak, priority := 1, motorPriority := 1, channels := [4], offsets := [], legs := []
       phases := [none], window := some (2500, 2500, 2700), status := .waiting, frozenAt := none, deferred := false, codes := []
       readings := [], joined := false, stayed := false, inStep := false }]
    (some { dir := .forward, step := 1, pulse := ⟨2500, 1250, 3750⟩, data := .closed 2000#32 6000 0 0 3
            search := some ⟨1250#32, true, none⟩, stepConfirmed := false, sched := some ⟨3250#32, .detected, false⟩
            post := none, timeout := none, opening := [] })
  { q with gates := (GateStage.initial.setGate .u .high gateOn).setGate .w .low gateOn }

/-- Chapter 5's commutation from step 1 to step 2 at carrier time 2000 (R88): U's HIGH gate off and V's on at once, and V's
HIGH off entered at 3750. -/
theorem test_commutation_in_the_pulse : (match exec (.detectedCommutation .i1) (st (pumpAt inPulse)) with
    | .next t => ([Phase.u, .v].map fun x => ((t.part.motor .i1).gates.gateAt x .high).on,
        (t.part.motor .i1).scheds.latest.map (·.edges))
    | .fault _ | .refused _ => ([], none)) =
      ([false, true], some [⟨1250, .u, .high, true, true⟩, ⟨2000, .u, .high, false, true⟩, ⟨2000, .v, .high, true, true⟩,
        ⟨3750, .v, .high, false, false⟩]) := by
  decide +kernel

/-- That commutation resolves the request MISSED and counts it (R87, R117). -/
theorem test_commutation_misses : (match exec (.detectedCommutation .i1) (st (pumpAt inPulse)) with
    | .next t => ((t.part.motor .i1).samp.missedState,
        (t.part.motor .i1).scheds.latest.map fun sc => sc.reqs.map (·.status))
    | .fault _ | .refused _ => (0, none)) = (1, some [.missed]) := by
  decide +kernel

theorem met_ClosedCommutationsMoveTheStep :
    let p := pumpAt (pump (.closed 2000#32 6000 0 0 3) (some ⟨3250#32, .detected, false⟩) none)
    p.en = true ∧ p.Quiet ∧ (p.motor .i1).slot.state = .running ∧ (∃ u, (p.motor .i1).seqr.run = some u ∧
      u.data = .closed 2000#32 6000 0 0 3 ∧ u.sched = some ⟨p.now, .detected, false⟩) ∧ (p.motor .i1).TakesCommutation p.now :=
  ⟨rfl, quiet_of rfl, rfl, ⟨_, rfl, rfl, rfl⟩, pump_takes _ _ _⟩

theorem met_ClosedCommutationsMoveTheStep_timeout :
    let p := pumpAt (pump (.closed 2000#32 6000 0 1 3) none (some 3250#32))
    p.en = true ∧ p.Quiet ∧ (p.motor .i1).slot.state = .running ∧ (∃ u se, (p.motor .i1).seqr.run = some u ∧
      u.data = .closed 2000#32 6000 0 1 3 ∧ u.timeout = some p.now ∧ u.search = some se ∧ se.searching = true) ∧
      1 + 1 < 3 ∧ (p.motor .i1).TakesCommutation p.now :=
  ⟨rfl, quiet_of rfl, rfl, ⟨_, _, rfl, rfl, rfl, rfl, rfl⟩, by decide, pump_takes _ _ _⟩

/-- The pump with two commutations in its period's list. -/
def crowded (q : Motor) : Motor :=
  { q with scheds := { q.scheds with latest := q.scheds.latest.map fun sc => { sc with
      drive := .block 1 ⟨2500, 1250, 3750⟩ [⟨10, 2, .ramp, false, false⟩, ⟨900, 3, .ramp, false, false⟩] false } } }

/-- A third commutation of each kind in one period. -/
theorem met_PostponedCommutationsWaitForTheValley : ∀ q ∈ [pump (.ramp 20000 0 0) (some ⟨3250#32, .ramp, false⟩) none,
      pump (.closed 2000#32 6000 0 0 3) (some ⟨3250#32, .detected, true⟩) none,
      pump (.closed 2000#32 6000 0 1 3) none (some 3250#32)],
    let p := pumpAt (crowded q)
    p.en = true ∧ p.Quiet ∧ (p.motor .i1).slot.state = .running ∧ (p.motor .i1).pace.carrier = some ⟨1250#32, 7#8, 5000⟩ ∧
      (⟨1250#32, 7#8, 5000⟩ : Carrier).atNext p.now = false ∧
      (∃ sc, (p.motor .i1).scheds.latest = some sc ∧ 2 ≤ sc.comms.length) ∧
      (∃ r, (p.motor .i1).seqr.run = some r ∧ r.search = some ⟨1250#32, true, none⟩) ∧
      p.store.ReadableAll [(RecordId.profile .i1).pos 12, (RecordId.profile .i1).pos 13] ∧
      20000 ≠ field (p.store.profileWord .i1 12) 0 ∧ 1 + 1 < 3 := by
  intro q h p
  refine ⟨rfl, quiet_of ?_, ?_, ?_, (by decide : (⟨1250#32, 7#8, 5000⟩ : Carrier).atNext 3250#32 = false), ?_, ?_,
    demo_readable _, ?_, by decide⟩
  · fin_cases h <;> rfl
  · fin_cases h <;> rfl
  · fin_cases h <;> rfl
  · fin_cases h <;> exact ⟨_, rfl, by decide⟩
  · fin_cases h <;> exact ⟨_, rfl, rfl⟩
  · rw [show p.store = demoStore from rfl]
    simp only [Store.profileWord, demo_word]
    decide

/-- A commutation kept for the valley, in RAMP and in CLOSED. -/
theorem met_PostponedCommutationsWaitForTheValley_valley : ∀ dk ∈ [(SubData.ramp 20000 0 0, CommKind.ramp),
      (.closed 2000#32 6000 0 0 3, .detected)],
    let r : SeqRun := { dir := .forward, step := 1, pulse := ⟨2500, 1250, 3750⟩, data := dk.1, search := none
                        stepConfirmed := true, sched := none, post := some ⟨dk.2, false⟩, timeout := none, opening := [] }
    let p := withMotor 6250#32 1250 .i1 (runningMotor (.block 1 ⟨2500, 1250, 3750⟩ [] false) [] [] (some r))
    p.en = true ∧ p.Quiet ∧ p.PeriodInRange ∧ (p.motor .i1).slot.state = .running ∧ (p.motor .i1).slot.park = false ∧
      (p.motor .i1).pace.carrier = some ⟨1250#32, 7#8, 5000⟩ ∧ later 1250#32 5000 = p.now ∧ p.ValleyReadable .i1 ∧
      p.NotStarved .i1 8#8 ∧ field (p.store.profileWord .i1 0) 0 ≠ 0 ∧ (p.motor .i1).seqr.run = some r := by
  intro dk h r p
  refine ⟨rfl, quiet_of rfl, demo_range _ _ _ _, rfl, rfl, rfl, (by decide : later 1250#32 5000 = 6250#32), demo_valley _ _ _ _, fun _ => ?_, ?_, rfl⟩
  all_goals
    rw [show p.store = demoStore from rfl]
    simp only [Store.profileWord, demo_word]
  · exact (by decide : 0 + 1 < field (demoWord ((RecordId.profile .i1).pos 15)).fields 0)
  · decide

/-- RAMP_HOLD (2) reached; LOST_LIMIT (3) reached. -/
theorem met_StallTripsTheMotor :
    (let p := pumpAt (pump (.ramp 10000 0 1) (some ⟨3250#32, .ramp, false⟩) none)
     p.en = true ∧ p.Quiet ∧ p.Fits ∧ (p.motor .i1).slot.state = .running ∧ (∃ u, (p.motor .i1).seqr.run = some u ∧
      u.data = .ramp (field (p.store.profileWord .i1 12) 0) 0 1 ∧ u.sched = some ⟨p.now, .ramp, false⟩) ∧
      p.store.ReadableAll [(RecordId.profile .i1).pos 12, (RecordId.profile .i1).pos 13] ∧
      field (p.store.profileWord .i1 13) 1 ≤ 1 + 1) ∧
    (let p := pumpAt (pump (.closed 2000#32 6000 0 2 3) none (some 3250#32))
     p.en = true ∧ p.Quiet ∧ p.Fits ∧ (p.motor .i1).slot.state = .running ∧ (∃ u se, (p.motor .i1).seqr.run = some u ∧
      u.data = .closed 2000#32 6000 0 2 3 ∧ u.timeout = some p.now ∧ u.search = some se ∧ se.searching = true) ∧ 3 ≤ 2 + 1) := by
  refine ⟨⟨rfl, quiet_of rfl, allFit_of rfl, rfl, ⟨_, rfl, ?_, rfl⟩, demo_readable _, ?_⟩, rfl, quiet_of rfl, allFit_of rfl, rfl,
    ⟨_, _, rfl, rfl, rfl, rfl, rfl⟩, by decide⟩
  all_goals
    rw [show (pumpAt _).store = demoStore from rfl]
    simp only [Store.profileWord, demo_word]
    rfl

/-! ### The sampling unit -/

/-- A request of the drum for plan entry 0, an auxiliary one with planned instant 100 and latest instant 300. -/
def aRequest (status : ReqStatus) (joined : Bool) : Request :=
  { entry := 0, tag := 7#8, kind := .auxValley, priority := 1, motorPriority := 1, channels := [4], offsets := [], legs := []
    phases := [none], window := some (100, 100, 300), status := status, frozenAt := none, deferred := false, codes := []
    readings := [], joined := joined, stayed := false, inStep := false }

/-- The drum with one request. -/
def drumWith (r : Request) : Motor := runningMotor (.sine (.const ⟨3750, 625, 4375⟩) 0 0) [] [r] none

theorem met_RequestsJoinAndHoldsBecomeEligible :
    let p := withMotor 1350#32 1350 .i0 (drumWith (aRequest .waiting false))
    p.en = true ∧ p.Quiet ∧ (∃ sc, (p.motor .i0).placedRequest 0 = some (sc, aRequest .waiting false) ∧
      later sc.valley 100 = p.now) ∧ (aRequest .waiting false).window = some (100, 100, 300) :=
  ⟨rfl, quiet_of (by decide), ⟨_, rfl, by decide⟩, rfl⟩

/-- A hold that became free 24 ticks ago. -/
theorem met_RequestsJoinAndHoldsBecomeEligible_hold :
    let p := { demo 24#32 24 with sampler := { Sampler.initial with busPlan := .done } }
    p.en = true ∧ p.Quiet ∧ p.sampler.holds.get .i2 = .free 0#32 false ∧ 24 ≤ ticksFrom p.now 0#32 :=
  ⟨rfl, quiet_of (by decide), rfl, by decide⟩

/-- The sampling unit with a waiting list, its holds acquired or all HELD. -/
def unitWith (w : WaitItem) (hold : Hold) (bus : BusReq) : Sampler :=
  { Sampler.initial with holds := .const hold, waiting := [w], busReq := bus, busPlan := .done }

def motorItem : WaitItem :=
  { req := .motor .i0 3 0 7#8, holds := 1, planned := 1350#32, latest := 1550#32, motorPriority := 1, priority := 1 }

def busItem : WaitItem := { req := .bus, holds := 1, planned := 1350#32, latest := 1550#32, motorPriority := 0, priority := 0 }

/-- The demonstration with the drum's request waiting, at a tick. -/
def sampling (tick : Tick) (sa : Sampler) : Part :=
  { withMotor tick tick.toNat .i0 (drumWith (aRequest .waiting true)) with sampler := sa }

theorem met_FreezeTakesTheHeadOfTheList :
    (let p := sampling 1350#32 (unitWith motorItem (.free 0#32 true) .absent)
     p.en = true ∧ p.Quiet ∧ p.placed = true ∧ p.sampler.waiting = [motorItem] ∧ motorItem.req = .motor .i0 3 0 7#8 ∧
      (∃ sc, (p.motor .i0).scheds.findReq 3 0 = some (sc, aRequest .waiting true)) ∧ (aRequest .waiting true).channels ≠ [] ∧
      motorItem.holds = (aRequest .waiting true).channels.length ∧
      (aRequest .waiting true).channels.length ≤ (p.sampler.eligibleHolds p.now).length) ∧
    (let p := sampling 1350#32 (unitWith busItem (.free 0#32 true) (.waiting 6 1350#32 1550#32))
     p.en = true ∧ p.Quiet ∧ p.placed = true ∧ p.sampler.waiting = [busItem] ∧ busItem.req = .bus ∧ busItem.holds = 1 ∧
      p.sampler.busReq = .waiting 6 1350#32 1550#32 ∧ p.sampler.eligibleHolds p.now = [.i0, .i1, .i2]) :=
  ⟨⟨rfl, quiet_of (by decide), by decide +kernel, rfl, rfl, ⟨_, rfl⟩, by decide, rfl, by decide⟩, rfl, quiet_of (by decide),
    by decide +kernel, rfl, rfl, rfl, rfl, by decide⟩

/-- At tick 5000, position 4999: the drum's request waits, and a step of this instant will find a word uncorrectable: the
cycle end (word 16, PROFILE 0 word 0, where the scrubber stands) or the bus placement (word 4 of CONFIG). -/
def cancelling (pos : Fin 82) (endDue : Bool) (busPlan : BusPlan) (hold : Hold) : Part :=
  { sampling 5000#32 { unitWith { motorItem with latest := 5000#32 } hold .absent with busPlan := busPlan } with
    tb := { Timebase.initial 5000 with tick := 5000#32, pos := 4999, endDue := endDue }
    store := { demoStore.setWord pos { demoWord pos with flips := .two } with scrubPos := 16 } }

theorem met_FreezeTakesTheHeadOfTheList_cancelled :
    let p := cancelling 16 true .done (.free 0#32 true)
    p.en = true ∧ p.Quiet ∧ p.Fits ∧ p.placed = false ∧ p.ready .freeze = true ∧ p.tb.endDue = true ∧
      (placers.all fun e => e == .masterCycleEnd || p.delay e != some 0) = true ∧ (p.motor .i0).slot.state = .running ∧
      p.store.scrubPos ∈ (RecordId.profile .i0).positions ∧ (p.store.word 16).valid = true ∧ (p.store.word 16).broken 16 = true ∧
      (∀ i : Fin 82, i = 1 ∨ i = 2 → (p.store.word i).broken i = false) ∧ field (p.store.word 3).fields 1 ≠ 0 := by
  intro p
  have hw : ∀ i, p.store.word i = if i = 16 then { demoWord 16 with flips := .two } else demoStore.word i := fun i =>
    Store.word_setWord demoStore 16 i _
  refine ⟨rfl, quiet_of rfl, allFit_of rfl, by decide +kernel, by decide +kernel, rfl, by decide +kernel, rfl, by decide, ?_, ?_, ?_, ?_⟩
  · rw [hw, if_pos rfl]
    rfl
  · rw [hw, if_pos rfl]
    rfl
  · intro i hi
    rw [hw, if_neg (by rcases hi with rfl | rfl <;> decide)]
    exact (demo_one i).2
  · rw [hw, if_neg (by decide), demo_word]
    decide

/-- R117: a freeze and the bus placement that trips the motor, in either order: FROZEN, or MISSED with reason STATE. -/
theorem test_freeze_and_cancel :
    let p := cancelling 4 false (.at 4999) (.free 0#32 true)
    let seen := fun (p : Part) => ((p.motor .i0).slot.state, (p.motor .i0).samp,
      (p.motor .i0).scheds.latest.map fun sc => sc.reqs.map (·.status))
    (match exec .freeze (st p) with
      | .next t => seen t.part.busPlace
      | .fault _ | .refused _ => (.off, ⟨0, 0, 0, 0⟩, none)) = (.tripped, ⟨1, 1, 0, 0⟩, some [.frozen]) ∧
    seen p.busPlace = (.tripped, ⟨0, 0, 0, 1⟩, some [.missed]) ∧ p.delay .busRequestPlace = some 0 := by decide +kernel

/-- R117: the latest instant comes before the bus placement that cancels, too, with the holds all HELD. -/
theorem met_DeadlineMissesTheRequest_cancelled :
    let p := cancelling 4 false (.at 4999) (.held 3 .bus 4990#32)
    p.en = true ∧ p.placed = false ∧ p.ready (.deadline (.motor .i0 0)) = true ∧
      p.sampler.waiter (.motor .i0 0) = some { motorItem with latest := 5000#32 } ∧ p.now = 5000#32 :=
  ⟨rfl, by decide +kernel, by decide +kernel, rfl, rfl⟩

theorem met_DeadlineMissesTheRequest :
    (let p := sampling 1550#32 (unitWith motorItem (.held 3 .bus 1500#32) .absent)
     p.en = true ∧ p.Quiet ∧ p.placed = true ∧ p.sampler.servable p.now = false ∧
      p.sampler.waiter (.motor .i0 0) = some motorItem ∧ motorItem.latest = p.now) ∧
    (let p := sampling 1550#32 (unitWith busItem (.held 3 .bus 1500#32) (.waiting 6 1350#32 1550#32))
     p.en = true ∧ p.Quiet ∧ p.placed = true ∧ p.sampler.servable p.now = false ∧ p.sampler.waiter .bus = some busItem ∧
      busItem.req = .bus ∧ busItem.latest = p.now) :=
  ⟨⟨rfl, quiet_of (by decide), by decide +kernel, by decide, rfl, rfl⟩, rfl, quiet_of (by decide), by decide +kernel, by decide,
    rfl, rfl, rfl⟩

/-- The demonstration with the drum's frozen request under conversion, the code due now. -/
def converting (r : Request) (req : ReqRef) : Part :=
  { withMotor 1400#32 1400 .i0 (drumWith r) with
    sampler := { Sampler.initial with
      holds := .const (.held 4 req 1350#32), conv := some 1400#32, fifo := [⟨.i0, 4, req⟩], busPlan := .done } }

/-- A LINK_A request whose one code is due, and one of two channels with its first code due. -/
def linkRequest (channels : List (Fin 16)) : Request :=
  { aRequest .frozen true with kind := .linkA, channels := channels, offsets := [2048], phases := [some .u], stayed := true }

theorem met_ConversionFreesTheHold :
    let p := converting (linkRequest [4, 5]) (.motor .i0 3 0 7#8)
    p.en = true ∧ p.sampler.conv = some p.now ∧ p.sampler.fifo = [⟨.i0, 4, .motor .i0 3 0 7#8⟩] ∧ p.Quiet ∧
      (∃ sc, (p.motor .i0).scheds.findReq 3 0 = some (sc, linkRequest [4, 5])) ∧
      (linkRequest [4, 5]).codes.length + 1 ≠ (linkRequest [4, 5]).channels.length :=
  ⟨rfl, rfl, rfl, quiet_of (by decide), ⟨_, rfl⟩, by decide⟩

/-- I_LIMIT is 1000: a code of 3049 gives 1001 and trips, one of 3048 gives 1000 and does not. -/
theorem met_CurrentBeyondLimitTrips :
    let r := linkRequest [4]
    let p := converting r (.motor .i0 3 0 7#8)
    p.en = true ∧ p.Quiet ∧ p.Fits ∧ p.sampler.conv = some p.now ∧ p.sampler.fifo = [⟨.i0, 4, .motor .i0 3 0 7#8⟩] ∧
      (∃ sc, (p.motor .i0).scheds.findReq 3 0 = some (sc, r)) ∧ r.codes.length + 1 = r.channels.length ∧ r.kind ≠ .blockOn ∧
      r.stayed = true ∧ (p.motor .i0).slot.state = .running ∧ p.store.Readable ((RecordId.profile .i0).pos 8) ∧
      field (p.store.profileWord .i0 8) 0 = 1000 ∧
      ({ r with readings := r.form [3049#12] } : Request).currents = [(1001, some .u)] ∧
      ({ r with readings := r.form [3048#12] } : Request).currents = [(1000, some .u)] := by
  refine ⟨rfl, quiet_of rfl, allFit_of rfl, rfl, rfl, ⟨_, rfl⟩, rfl, by decide, rfl, rfl, demo_one _, ?_, by decide, by decide⟩
  rw [show (converting _ _).store = demoStore from rfl]
  simp only [Store.profileWord, demo_word]
  rfl

/-- The same request, its motor stopped since its freeze, or in a new run (R119). -/
theorem met_CurrentBeyondLimitTrips_left : ∀ state ∈ [MotorState.safeStop, .running],
    let r := { linkRequest [4] with stayed := false }
    let p := { converting r (.motor .i0 3 0 7#8) with
      motors := (converting r (.motor .i0 3 0 7#8)).motors.set .i0 { drumWith r with slot := (motorIn state).slot } }
    p.en = true ∧ p.Quiet ∧ p.sampler.conv = some p.now ∧ p.sampler.fifo = [⟨.i0, 4, .motor .i0 3 0 7#8⟩] ∧
      (∃ sc, (p.motor .i0).scheds.findReq 3 0 = some (sc, r)) ∧ r.codes.length + 1 = r.channels.length ∧ r.stayed = false := by
  intro state h
  exact ⟨rfl, quiet_of rfl, rfl, rfl, ⟨_, rfl⟩, rfl, rfl⟩

/-- R119: a code far beyond the limit (4095 less 2048, the limit 1000) after the motor has stopped: DONE, its frame built, no
trip. -/
theorem test_stopped_request_completes :
    let r := { linkRequest [4] with stayed := false }
    let p := { converting r (.motor .i0 3 0 7#8) with
      motors := (converting r (.motor .i0 3 0 7#8)).motors.set .i0 { drumWith r with slot := (motorIn .safeStop).slot } }
    (match exec (.conversionComplete 4095#12) (st p) with
    | .next t => ((t.part.motor .i0).slot.state, t.part.up.queue.map (·.body.kind),
        (t.part.motor .i0).scheds.latest.map fun sc => sc.reqs.map fun x => (x.status, x.readings.map (·.value)))
    | .fault _ | .refused _ => (.off, [], none)) = (.safeStop, [1], some [(.done, [2047])]) := by decide +kernel

/-- The pump with a BLOCK_ON request of which the last code is due; offset 0, so that the current is 500. -/
def blockRequest : Request :=
  { aRequest .frozen true with
    kind := .blockOn, channels := [0, 3, 6], offsets := [0], phases := [some .u, some .v, none], frozenAt := some 3200#32
    codes := [500#12, 1000#12], stayed := true, inStep := true }

def pumpSampled (data : SubData) (search : Option Search) : Part :=
  let q := runningMotor (.block 1 ⟨2500, 1250, 3750⟩ [] false) [] [blockRequest]
    (some { dir := .forward, step := 1, pulse := ⟨2500, 1250, 3750⟩, data := data, search := search, stepConfirmed := false
            sched := none, post := none, timeout := none, opening := [] })
  { pumpAt q with
    sampler := { Sampler.initial with
      holds := .const (.held 6 (.motor .i1 3 0 7#8) 3200#32), conv := some 3250#32, fifo := [⟨.i0, 6, .motor .i1 3 0 7#8⟩]
      busPlan := .done } }

/-- In RAMP and in CLOSED; no search, a search with no sample yet and one with a previous sample; blanking is 100 ticks. -/
theorem met_CrossingsAreActedOn : ∀ d ∈ [SubData.ramp 20000 0 0, .ramp 20000 2 0, .closed 2000#32 6000 0 0 3],
    ∀ se ∈ [none, some ⟨1250#32, true, none⟩, some ⟨1250#32, true, some ⟨-5, 3000#32⟩⟩],
    let p := pumpSampled d se
    p.en = true ∧ p.Quiet ∧ p.sampler.conv = some p.now ∧ p.sampler.fifo = [⟨.i0, 6, .motor .i1 3 0 7#8⟩] ∧
      (∃ sc, (p.motor .i1).scheds.findReq 3 0 = some (sc, blockRequest) ∧ (p.motor .i1).scheds.latest = some sc) ∧
      (p.motor .i1).slot.state = .running ∧ p.store.ReadableAll ([8, 9, 12, 13, 14].map (RecordId.profile .i1).pos) ∧
      ((500#12 : Code).toNat - (0 : Int)).natAbs ≤ field (p.store.profileWord .i1 8) 0 ∧
      atOrAfter 3200#32 (later 1250#32 (field (p.store.profileWord .i1 8) 1)) = true ∧
      field (p.store.profileWord .i1 12) 1 = 3 ∧ (p.motor .i1).TakesCommutation p.now := by
  intro d _ se _ p
  refine ⟨rfl, quiet_of rfl, rfl, rfl, ⟨_, rfl, rfl⟩, rfl, demo_readable _, ?_, ?_, ?_,
    ⟨⟨1250#32, 7#8, 5000⟩, rfl, .inr ⟨(by decide : ticksFrom 3250#32 1250#32 < 5000), _, rfl, by decide⟩⟩⟩
  all_goals
    rw [show p.store = demoStore from rfl]
    simp only [Store.profileWord, demo_word]
    decide

/-- A crossing on the third code: floating 1000 against half of a bus code of 1900 (rising expected in step 1), in RAMP with
CONFIRM reached: CLOSED, with the crossing counted and the commutation scheduled. -/
theorem test_handover : (match exec (.conversionComplete 1900#12)
      (st (pumpSampled (.ramp 20000 2 0) (some ⟨1250#32, true, some ⟨-50, 2200#32⟩⟩))) with
    | .next t => ((t.part.motor .i1).seqr.detected, (t.part.motor .i1).seqr.run.map fun u => (u.data, u.sched))
    | .fault _ | .refused _ => (0, none)) = (1, some (.closed 2700#32 20000 0 0 3, some ⟨10200#32, .detected, false⟩)) := by decide +kernel

/-- Entries of every kind; the smallest start of three, and of equal ones the highest phase, is left out. -/
theorem met_RequestsFollowTheKind :
    (∀ k ∈ [PlanKind.legPair, .linkA, .linkB, .blockOn, .auxValley, .auxPeak], ∃ e : PlanEntry, e.kind = k) ∧
    Phase.u.toNat < Phase.v.toNat ∧ Phase.w ≠ .u ∧ Phase.w ≠ .v ∧
    (∀ plan : SinePlan, plan.pulse = .const ⟨3750, 625, 4375⟩ →
      (plan.pulse.get .w).s = (plan.pulse.get .u).s ∧ (plan.pulse.get .w).s = (plan.pulse.get .v).s) :=
  ⟨fun k _ => ⟨{ index := 0, enabled := true, kind := k, tag := 7#8, decimation := 1, priority := 0, aux := [] }, rfl⟩,
    by decide, by decide, by decide, fun plan h => by rw [h]; decide⟩

/-- BUS_POS is 4000: read at 4000, read at another position, placed there later; and a CONFIG that is not valid. -/
theorem met_BusRequestIsPlaced :
    (∀ pos ∈ [4000, 0],
      let p := demo 0#32 pos
      p.en = true ∧ p.Quiet ∧ p.tb.endDue = false ∧ p.sampler.busPlan = .unread ∧ p.store.recordValid .config = true ∧
        p.store.ReadableAll [3, 4] ∧ (field (p.store.word 3).fields 1 = p.tb.pos ↔ pos = 4000)) ∧
    (let p := { demo 0#32 4000 with sampler := { Sampler.initial with busPlan := .at 4000 } }
     p.sampler.busPlan = .at p.tb.pos ∧ p.tb.pos < p.tb.len ∧ p.Quiet) ∧
    (let p := { Part.poweredOn true (.const true) with free := 0 }
     p.sampler.busPlan = .unread ∧ p.store.recordValid .config = false ∧ (p.store.word 3).broken 3 = false ∧ p.Quiet) := by
  refine ⟨fun pos h => ⟨rfl, quiet_of rfl, rfl, rfl, demo_valid _, demo_readable _, ?_⟩,
    ⟨rfl, by decide, quiet_of (by decide)⟩, rfl, by decide, by decide, quiet_of (by decide)⟩
  rw [show (demo 0#32 pos).store = demoStore from rfl, demo_word]
  fin_cases h <;> decide

/-- UV 1400 with hysteresis 40, OV 3300: from BELOW the code 1440 stays, 1441 leaves it. -/
theorem met_BusCodeJudged :
    let p := converting (linkRequest [4]) .bus
    p.en = true ∧ p.Quiet ∧ p.sampler.conv = some p.now ∧ p.sampler.fifo = [⟨.i0, 4, .bus⟩] ∧
      p.store.recordValid .config = true ∧ p.store.ReadableAll [5, 6] ∧ p.bus.uvBelow = true ∧
      nextUv true 1440 1400 40 = true ∧ nextUv true 1441 1400 40 = false ∧ nextUv false 1400 1400 40 = false ∧
      nextUv false 1399 1400 40 = true ∧ nextOv false 3300 3300 40 = false ∧ nextOv false 3301 3300 40 = true ∧
      nextOv true 3260 3300 40 = true ∧ nextOv true 3259 3300 40 = false :=
  ⟨rfl, quiet_of (by decide), rfl, rfl, demo_valid _, demo_readable _, rfl, by decide⟩

/-- With a running motor, nothing in flight and room: a code of 1399 enters BELOW and leaves HIGH, and UV_MODE is STOP. -/
theorem met_BusCodeJudged_notices :
    let p := { withMotor 1400#32 1400 .i0 drum with
      sampler := (converting (linkRequest [4]) .bus).sampler, bus := { BusSup.initial with uvBelow := false, ovHigh := true } }
    p.en = true ∧ p.Quiet ∧ p.store.ReadableAll [5, 6] ∧ (∀ m, (p.motor m).NothingInFlight) ∧ p.up.queue.length + 5 ≤ 8 ∧
      field (p.store.word 5).fields 0 = 1400 ∧ field (p.store.word 6).fields 1 = 1 ∧ p.drivenMotors = [.i0] := by
  refine ⟨rfl, quiet_of (by decide), demo_readable _, fun m sc h => ?_, (by decide : 0 + 5 ≤ 8), ?_, ?_, by decide⟩
  · cases m
    · obtain rfl := List.mem_singleton.1 h
      exact .inr rfl
    all_goals exact absurd h List.not_mem_nil
  all_goals
    rw [show (Part.store _) = demoStore from rfl, demo_word]
    decide

/-- A code that finds CONFIG not valid. -/
theorem met_BusCodeJudged_invalid :
    let p := { converting (linkRequest [4]) .bus with store := Store.initial }
    p.en = true ∧ p.Quiet ∧ p.sampler.conv = some p.now ∧ p.sampler.fifo = [⟨.i0, 4, .bus⟩] ∧
      p.store.recordValid .config = false ∧ ∀ pos, (p.store.word pos).valid = false :=
  ⟨rfl, quiet_of (by decide), rfl, rfl, by decide, fun pos => by simp [Store.word, Store.initial]⟩

/-! ### Comparator inputs and the link -/

/-- A motor in each state for OC_PIN_FALL; a TRIPPED one with its record. -/
def trippedMotor : Motor :=
  let q := motorIn .tripped
  { q with slot := { q.slot with fault := some ⟨.stall, 5#32, none, 3, some .w, none⟩ } }

theorem met_OcPinEdgesAreJudged :
    (∀ q ∈ [drum, waiting, motorIn .safeStop, trippedMotor, motorIn .ready],
      let p := withMotor 1300#32 1300 .i0 q
      p.en = true ∧ p.Quiet ∧ (p.motor .i0).prot.pinHigh = true) ∧
    (trippedMotor.slot.state = .tripped ∧ trippedMotor.slot.fault = some ⟨.stall, 5#32, none, 3, some .w, none⟩) ∧
    ((Part.poweredOn true (.const false)).motor .i0).prot.pinHigh = false := by
  refine ⟨fun q h => ⟨rfl, quiet_of ?_, ?_⟩, ⟨rfl, rfl⟩, rfl⟩ <;> fin_cases h <;> decide

/-- A general queue of one frame. -/
def queueOf (b : FrameBody) : Upstream := { Upstream.initial with queue := [⟨0, b⟩], nextId := 1 }

def aSample : SampleFrame :=
  { motor := .i0, period := 40#8, stream := 50#8, tag := 52#8, outcome := .new, overrun := false, stale := false, step := none
    crossing := false, commutated := false, shift := false, valley := 800000#32, entries := [] }

/-- Two fault slots of one instant and a later one; each kind of frame at the head; nothing at all. -/
theorem met_TransferStartFixesTheFrame :
    (∀ u ∈ [Upstream.initial, queueOf (.sample aSample), queueOf (.reply ⟨1#8, 3#8, .ok, [1#8]⟩), queueOf (.notice (.syncSlip 5))],
      let p := { demo 0#32 0 with up := u }
      p.en = true ∧ p.Quiet ∧ p.up.transfer = .absent ∧ (p.store.word 7).broken 7 = false ∧ ∀ m, p.up.slots.get m = none) ∧
    (let r : FaultRecord := ⟨.stall, 5#32, none, 3, some .w, none⟩
     let u : Upstream := { Upstream.initial with slots := ⟨some { r with instant := 6#32 }, some r, some r⟩ }
     u.slots.get .i1 = some r ∧ ∀ k r', u.slots.get k = some r' → k ≠ .i1 →
      atOrAfter r'.instant r.instant = true ∧ (r'.instant = r.instant → Ix3.i1.toNat < k.toNat)) := by
  refine ⟨fun u h => ⟨rfl, quiet_of rfl, ?_, (demo_one 7).2, ?_⟩, rfl, ?_⟩
  · fin_cases h <;> rfl
  · intro m
    fin_cases h <;> cases m <;> rfl
  · intro k r' h hk
    cases k
    · obtain rfl := Option.some.inj h
      decide
    · exact absurd rfl hk
    · obtain rfl := Option.some.inj h
      decide

/-- LDO (R162) of a frame whose first two bytes are 80 and 01: HIGH first, and HIGH as the sixteenth bit; LOW from bit 288 on. -/
theorem test_ldo :
    let p := { demo 0#32 0 with up := { Upstream.initial with
      transfer := .active .idle (0x80#8 :: 0x01#8 :: List.replicate 34 0xFF#8) false false } }
    [0, 1, 7, 8, 15, 16, 287, 288].map p.ldo = [some true, some false, some false, some false, some true, some true, some true,
        some false] ∧
      ({ p with en := false } : Part).ldo 0 = none ∧ (demo 0#32 0).ldo 0 = some false := by decide

/-- A general queue of eight: all replies; or with a sample frame second that the transfer carries, or does not. -/
def fullQueue (carried : Bool) (second : FrameBody) : Upstream :=
  { Upstream.initial with
    queue := (List.range 8).map fun i => ⟨i, if i = 1 then second else .reply ⟨1#8, 3#8, .ok, [1#8]⟩⟩, nextId := 8
    transfer := if carried then .active (.queued 1) [] false false else .absent }

theorem met_FramesJoinTheGeneralQueue : ∀ u ∈ [Upstream.initial, fullQueue false (.sample aSample),
      fullQueue true (.sample aSample), fullQueue false (.notice (.syncSlip 5))], u.Numbered := by
  intro u h
  fin_cases h
  · exact ⟨by decide, by decide, fun id hi => nomatch (show (none : Option Nat) = some id from hi)⟩
  · exact ⟨by decide, by decide, fun id hi => nomatch (show (none : Option Nat) = some id from hi)⟩
  · exact ⟨by decide, by decide, fun id hi => by
      obtain rfl := Option.some.inj (show some 1 = some id from hi)
      decide⟩
  · exact ⟨by decide, by decide, fun id hi => nomatch (show (none : Option Nat) = some id from hi)⟩

/-- The one displaceable SAMPLE frame gives way; a carried one does not, and the newcomer is lost. -/
theorem test_full_queue :
    ((fullQueue false (.sample aSample)).join (.notice (.syncSlip 5))).queue.map (·.id) = [0, 2, 3, 4, 5, 6, 7, 8] ∧
      ((fullQueue true (.sample aSample)).join (.notice (.syncSlip 5))).queue.map (·.id) = [0, 1, 2, 3, 4, 5, 6, 7] := by decide

/-- A transfer in progress that carries a queued frame, a fault report or an IDLE frame. -/
theorem met_IdleFrameEndsTheTransfer : ∀ c ∈ [Carried.queued 0, .fault .i0, .idle],
    let u := { queueOf (.notice (.syncSlip 5)) with
      transfer := .active c [] false false, slots := .const (some ⟨.stall, 5#32, none, 3, some .w, none⟩) }
    let p := { demo 0#32 0 with up := u }
    p.en = true ∧ p.up.transfer ≠ .ignored ∧ p.link.errors < 256 ∧
      u.queue.find? (fun g => g.id == 0) = some ⟨0, .notice (.syncSlip 5)⟩ ∧ (u.slots.get .i0).isSome = true := by
  intro c _
  exact ⟨rfl, by simp, (by decide : 0 < 256), rfl, rfl⟩

/-- Streams 18 (MOTOR0 by record 0), 40 (MOTOR1 by record 2) and 64 (DROP by record 3); 200 matches none. -/
theorem met_SetpointIsRouted :
    (demo 0#32 0).Serving 0 ∧
    (∀ x ∈ [((18#8 : Byte), (0 : Nat), 0), (40#8, 2, 1), (64#8, 3, 3)],
      entryMatches (tableWords.getD (8 + x.2.1) []) x.1 = true ∧ field (tableWords.getD (8 + x.2.1) []) 3 = x.2.2 ∧
        ∀ j ∈ List.range x.2.1, entryMatches (tableWords.getD (8 + j) []) x.1 = false) ∧
    ∀ j ∈ List.range 8, entryMatches (tableWords.getD (8 + j) []) 200#8 = false :=
  ⟨serving 0 rfl (by decide) (by decide) (by decide) rfl rfl (by decide), by decide, by decide⟩

/-- Record 0 of ACCEPT, the one that matches stream 18, with two disturbed bits: no other record matches. -/
theorem met_SetpointIsRouted_broken :
    let p := { demo 0#32 0 with store := demoStore.setWord 8 { demoWord 8 with flips := .two } }
    p.Serving 0 ∧ p.Quiet ∧ (p.store.word 8).valid = true ∧ (p.store.word 8).broken 8 = true ∧
      ∀ j ∈ List.range 7, entryMatches (tableWords.getD (9 + j) []) 18#8 = false := by
  intro p
  have hw : p.store.word 8 = { demoWord 8 with flips := .two } := by
    rw [show p.store.word 8 = (demoStore.setWord 8 { demoWord 8 with flips := .two }).word 8 from rfl, Store.word_setWord, if_pos rfl]
  refine ⟨serving 0 rfl (Transfer.noConfusion : Transfer.absent ≠ .ignored) (by decide : 0 < 256) rfl rfl rfl (by decide),
    quiet_of rfl, ?_, ?_, by decide⟩
  · rw [hw]
    rfl
  · rw [hw]
    rfl

/-- The part with an error count. -/
def withErrors (n : Nat) : Part := { demo 0#32 0 with link := { Link.initial with errors := n, recovery := 63 } }

theorem quiet_withErrors (n : Nat) : (withErrors n).Quiet := quiet_of rfl

theorem met_BadFramesCountAgainstTheLink : ∀ n ∈ [0, 120, 247, 256],
    let p := withErrors n
    p.en = true ∧ p.Quiet ∧ p.up.transfer ≠ .ignored ∧ (p.link.errors = 256 ∨ p.link.errors + 8 < 256) := by
  intro n h
  exact ⟨rfl, quiet_withErrors n, by simp [withErrors, demo, Part.poweredOn, Upstream.initial], by fin_cases h <;> decide⟩

theorem met_BadFramesCountAgainstTheLink_loss : ∀ n ∈ [248, 255],
    let p := withErrors n
    p.en = true ∧ p.Quiet ∧ p.up.transfer ≠ .ignored ∧ p.link.errors < 256 ∧ 256 ≤ p.link.errors + 8 ∧
      (∀ m, (p.motor m).NothingInFlight) ∧ p.up.queue.length + 3 ≤ 8 := by
  intro n h
  refine ⟨rfl, quiet_withErrors n, by simp [withErrors, demo, Part.poweredOn, Upstream.initial], by fin_cases h <;> decide,
    by fin_cases h <;> decide, fun m sc hs => ?_, (by decide : 0 + 3 ≤ 8)⟩
  cases m <;> exact absurd hs List.not_mem_nil

/-- The 64th good frame. -/
theorem met_LostLinkIgnoresGoodFrames :
    (withErrors 256).en = true ∧ (withErrors 256).up.transfer ≠ .ignored ∧ (withErrors 256).link.errors = 256 ∧
      (withErrors 256).link.recovery + 1 = 64 ∧ (Instr.readStatus 1#8 0#4 0#8).isGoodFrame = true := by decide

/-! ### Motor commands and the other requests -/

theorem served (m : Slot) (q : Motor) (h : quietB (withMotor 1300#32 1300 m q) = true) (room : Nat) (hr : room ≤ 8) :
    (withMotor 1300#32 1300 m q).Serving room :=
  serving room rfl (by simp [withMotor, demo, Part.poweredOn, Upstream.initial])
    (by simp [withMotor, demo, Part.poweredOn, Link.initial]) h rfl rfl hr

/-- A motor number of 3; DEGRADED at 129; LOCKED_OUT; a state that refuses. -/
theorem met_RefusedCommandsChangeNothing :
    (withErrors 129).Serving 1 ∧ 128 < (withErrors 129).link.errors ∧ (Instr.arm 1#8 3#4).motorCmd = some (1#8, 3#4) ∧
      3 ≤ (3#4).toNat ∧ (Instr.arm 1#8 2#4).gated = true ∧ (Instr.halt 1#8 2#4).gated = false ∧
      (withMotor 1300#32 1300 .i2 (motorIn .lockedOut)).Serving 1 ∧ (Instr.halt 1#8 2#4).refusedIn .tripped = true ∧
      (Instr.arm 1#8 2#4).refusedIn .ready = true ∧ (withMotor 1300#32 1300 .i2 (motorIn .ready)).link.errors < 128 ∧
      targetOf 2#4 2#2 0#8 = some (.profile .i0) :=
  ⟨serving 1 rfl (by decide) (by decide) (by decide) rfl rfl (by decide), by decide, rfl, by decide, rfl, rfl,
    served _ _ rfl 1 (by decide), rfl, rfl, by decide, rfl⟩

/-- The motors of the demonstration can be armed; motor 1 with P at its carrier offset cannot. -/
theorem met_ArmTakesTheGateCopies :
    (withMotor 1300#32 1300 .i1 (Motor.initial true)).Serving 1 ∧
      (withMotor 1300#32 1300 .i1 (Motor.initial true)).link.errors < 128 ∧ (1#4).toNat = Ix3.i1.toNat ∧
      ((withMotor 1300#32 1300 .i1 (Motor.initial true)).motor .i1).slot.state = .off ∧
      ∀ pos ∈ motorRecords .i1, (demoStore.word pos).valid = true → (demoStore.word pos).broken pos = false :=
  ⟨served _ _ rfl 1 (by decide), by decide, by decide, rfl, demo_whole _⟩

/-- ARM of motor 1 in that state: READY with the gate copies of its profile (chapter 2). -/
theorem test_arm : (match exec (.arm 1#8 1#4) (st (withMotor 1300#32 1300 .i1 (Motor.initial true))) with
    | .next t => ((t.part.motor .i1).slot.state, (t.part.motor .i1).slot.copies, t.part.up.queue.map (·.body))
    | .fault _ | .refused _ => (.off, none, [])) =
      (MotorState.ready, some ⟨80, .lowBrake, .lowBrake⟩, [FrameBody.reply ⟨1#8, 3#8, .ok, [1#8]⟩]) := by decide +kernel

/-- The demonstration with word 17 (PROFILE 0, word 1) uncorrectable and no motor RUNNING, for ARM, START and ACK_FAULT. -/
theorem met_records_broken : ∀ q ∈ [Motor.initial true, motorIn .ready, motorIn .safeStop, trippedMotor],
    let p := { withMotor 1300#32 1300 .i0 q with store := demoStore.setWord 17 { demoWord 17 with flips := .two } }
    p.Serving 1 ∧ p.Quiet ∧ p.link.errors < 128 ∧ (∀ k, (p.motor k).slot.state ≠ .running) ∧ q.prot.pinHigh = true ∧
      ∃ pos ∈ motorRecords .i0, (p.store.word pos).valid = true ∧ (p.store.word pos).broken pos = true := by
  intro q h p
  have hw : p.store.word 17 = { demoWord 17 with flips := .two } := by
    rw [show p.store.word 17 = (demoStore.setWord 17 { demoWord 17 with flips := .two }).word 17 from rfl, Store.word_setWord, if_pos rfl]
  refine ⟨serving 1 rfl (Transfer.noConfusion : Transfer.absent ≠ .ignored) (by decide : 0 < 256) ?_ rfl rfl (by decide),
    quiet_of ?_, (by decide : 0 < 128), fun k => ?_, ?_, 17, by decide, ?_, ?_⟩
  · fin_cases h <;> rfl
  · fin_cases h <;> rfl
  · fin_cases h <;> cases k <;> decide
  · fin_cases h <;> rfl
  · rw [hw]
    rfl
  · rw [hw]
    rfl

theorem met_DisarmAndReleaseLeaveGatesOff : ∀ q ∈ [Motor.initial true, motorIn .ready, motorIn .safeStop],
    (withMotor 1300#32 1300 .i0 q).Serving 1 ∧ (0#4).toNat = Ix3.i0.toNat := by
  intro q h
  exact ⟨served _ _ (by fin_cases h <;> rfl) 1 (by decide), by decide⟩

theorem met_StartEntersStartPending : ∀ qo ∈ [(motorIn .ready, StartOrigin.ready), (motorIn .safeStop, .safeStop)],
    let p := withMotor 1300#32 1300 .i0 qo.1
    p.Serving 1 ∧ p.link.errors < 128 ∧ (0#4).toNat = Ix3.i0.toNat ∧
      (p.motor .i0).slot.state = (match qo.2 with | .ready => .ready | .safeStop => .safeStop) ∧
      ∀ pos ∈ motorRecords .i0, (p.store.word pos).valid = true → (p.store.word pos).broken pos = false := by
  intro qo h
  exact ⟨served _ _ (by fin_cases h <;> rfl) 1 (by decide), by show 0 < 128; decide, by decide, by fin_cases h <;> rfl, demo_whole _⟩

theorem met_ParkIsTakenAndCompletes : ∀ q ∈ [drum, waiting],
    (withMotor 1300#32 1300 .i0 q).Serving 1 ∧ (0#4).toNat = Ix3.i0.toNat ∧ q.NothingInFlight := by
  intro q h
  refine ⟨served _ _ (by fin_cases h <;> rfl) 1 (by decide), by decide, ?_⟩
  fin_cases h
  · intro sc hs
    obtain rfl := List.mem_singleton.1 hs
    exact .inr rfl
  · exact fun sc hs => absurd hs List.not_mem_nil

theorem met_HaltStopsTheMotor : ∀ q ∈ [drum, waiting],
    (withMotor 1300#32 1300 .i0 q).Serving 1 ∧ (0#4).toNat = Ix3.i0.toNat ∧ q.NothingInFlight ∧
      (withMotor 1300#32 1300 .i0 q).up.queue.length + 2 ≤ 8 := fun q h =>
  ⟨(met_ParkIsTakenAndCompletes q h).1, (met_ParkIsTakenAndCompletes q h).2.1, (met_ParkIsTakenAndCompletes q h).2.2, by show 0 + 2 ≤ 8; decide⟩

/-- A motor with a request still waiting, which leaves with it, and with one that is frozen, which does not. -/
theorem met_HaltStopsTheMotor_inFlight : ∀ sl ∈ [(ReqStatus.waiting, 1), (.frozen, 0)],
    let p := withMotor 1300#32 1300 .i0 (drumWith (aRequest sl.1 true))
    p.Serving 1 ∧ (0#4).toNat = Ix3.i0.toNat ∧ (p.motor .i0).slot.state = .running ∧
      ((p.motor .i0).lastFrames .i0).length = sl.2 ∧ (p.motor .i0).unfrozenCount = sl.2 := by
  intro sl h
  exact ⟨served _ _ (by fin_cases h <;> rfl) 1 (by decide), by decide, rfl, by fin_cases h <;> rfl, by fin_cases h <;> rfl⟩

/-- HALT of a motor with a frozen request (R28, R117, R119): the notice, then the reply; the request stays frozen and is one
whose motor has not stayed RUNNING. -/
theorem test_halt_with_frozen_request :
    (match exec (.halt 9#8 0#4) (st (withMotor 1400#32 1400 .i0 (drumWith (aRequest .frozen true)))) with
    | .next t => (t.part.up.queue.map (·.body), (t.part.motor .i0).samp.missedState,
        (t.part.motor .i0).scheds.latest.map fun sc => sc.reqs.map fun x => (x.status, x.stayed))
    | .fault _ | .refused _ => ([], 1, none)) =
      ([.notice (.safeStop .i0 .halt), .reply ⟨9#8, 3#8, .ok, [4#8]⟩], 0, some [(.frozen, false)]) := by decide +kernel

/-- A general queue of eight replies whose head a transfer carries. -/
def carriedHead : Upstream :=
  { fullQueue false (.notice (.syncSlip 5)) with transfer := .active (.queued 0) [] false false }

/-- R131: a notice and a reply join at the end of that transfer: end first, the notice joins and the reply is lost; the end
between the two, the notice is lost and the reply joins; end last, both are lost. -/
theorem test_end_among_frames :
    ([0, 1, 2].map fun n =>
      let frames := [FrameBody.notice (.syncSlip 6), .reply ⟨9#8, 3#8, .ok, [4#8]⟩]
      let u := (frames.drop n).foldl Upstream.join ((frames.take n).foldl Upstream.join carriedHead).consume
      (u.queue.map (·.id), u.noticeLost, u.replyLost)) =
      [([1, 2, 3, 4, 5, 6, 7, 8], 0, 1), ([1, 2, 3, 4, 5, 6, 7, 8], 1, 0), ([1, 2, 3, 4, 5, 6, 7], 1, 1)] := by decide

/-- PARK and HALT at that full queue. -/
theorem met_HaltStopsTheMotor_full : ∀ q ∈ [drum, waiting],
    let p := { withMotor 1300#32 1300 .i0 q with up := carriedHead }
    p.Serving 0 ∧ p.up.queue.length = 8 ∧ p.up.transfer ≠ .absent := by
  intro q h p
  refine ⟨{ en := rfl, taken := (by decide : carriedHead.transfer ≠ .ignored), notLost := (by decide : 0 < 256), quiet := quiet_of (by fin_cases h <;> rfl),
            numbered := ⟨(by decide : ∀ f ∈ carriedHead.queue, f.id < 8), (by decide : (carriedHead.queue.map (·.id)).Nodup), ?_⟩
            room := (by decide : carriedHead.queue.length + 0 ≤ 8) }, rfl, (by decide : carriedHead.transfer ≠ .absent)⟩
  intro id hi
  obtain rfl := Option.some.inj (show some 0 = some id from hi)
  exact (by decide : 0 < 8)

theorem met_AckFaultClearsTheRecord : ∀ q ∈ [trippedMotor, { trippedMotor with prot := { trippedMotor.prot with pinHigh := false } }],
    let p := withMotor 1300#32 1300 .i0 q
    p.Serving 1 ∧ (0#4).toNat = Ix3.i0.toNat ∧ (p.motor .i0).slot.state = .tripped ∧
      ∀ pos ∈ motorRecords .i0, (p.store.word pos).valid = true → (p.store.word pos).broken pos = false := by
  intro q h
  exact ⟨served _ _ (by fin_cases h <;> rfl) 1 (by decide), by decide, by fin_cases h <;> rfl, demo_whole _⟩

/-- A two-byte field beside a three-byte one, flags in one byte, and a plan word. -/
theorem met_StoreWordsTravelWhole :
    11 < (RecordId.profile .i0).words ∧ [16777215, 128].length = ((RecordId.profile .i0).specs 11).length ∧
      wordInRange ((RecordId.profile .i0).specs 11) [16777215, 128] = true ∧
      (RecordId.profile .i0).linkBytes 11 [16777215, 128] = [0xFF#8, 0xFF#8, 0xFF#8, 0x80#8] ∧
      (RecordId.profile .i0).linkBytes 7 [4095, 3, 1, 1] = [0x0F#8, 0xFF#8, 3#8, 3#8] ∧
      wordInRange ((RecordId.plan .i0).specs 0) [1, 5, 255, 6, 1, 15, 14, 3] = true ∧
      (RecordId.plan .i0).linkBytes 0 [1, 5, 255, 6, 1, 15, 14, 3] = [0x77#8, 0xFF#8, 0xF6#8, 0x0E#8] := by decide

/-- A record's last segment, and one beyond it. -/
theorem met_ReadRecordGivesTheSegment :
    (demo 0#32 0).Serving 1 ∧ targetOf 2#4 2#2 0#8 = some (.profile .i0) ∧ targetOf 2#4 3#2 0#8 = none ∧
      (∀ pos ∈ (RecordId.profile .i0).positions, (demoStore.word pos).valid = true → (demoStore.word pos).broken pos = false) :=
  ⟨met_serving.1, rfl, rfl, demo_whole _⟩

/-- The demonstration's store with one word's bits disturbed. -/
def disturbed (pos : Fin 82) (flips : Flips) : Part :=
  { demo 5000#32 4999 with
    tb := (cycleEnded 3).tb
    store := demoStore.setWord pos { demoWord pos with flips := flips } }

/-- Word 4 of CONFIG, which the scrubber has reached, read by READ_RECORD too: one disturbed bit, and two. -/
theorem met_DisturbedWordsAreHandled : ∀ fl ∈ [Flips.one, .two],
    let p := disturbed 4 fl
    let p := { p with store := { p.store with scrubPos := 4 } }
    p.Serving 2 ∧ p.tb.endDue = true ∧ targetOf 0#4 0#2 0#8 = some .config ∧ (4 : Fin 82) ∈ RecordId.config.positions ∧
      (p.store.word 4).valid = true ∧ (p.store.word 4).flips = fl ∧ (p.store.word 4).codePos = 4 ∧
      ((p.store.word 4).broken 4 = true ↔ fl = .two) ∧
      ∀ i, i ≠ 4 → (p.store.word i).flips = .whole ∧ (p.store.word i).codePos = i.val := by
  intro fl h p0 p
  have hw : ∀ i, p.store.word i = if i = 4 then { demoWord 4 with flips := fl } else demoStore.word i := by
    intro i
    rw [show p.store.word i = (demoStore.setWord 4 { demoWord 4 with flips := fl }).word i from rfl]
    exact Store.word_setWord _ _ _ _
  refine ⟨serving 2 rfl (Transfer.noConfusion : Transfer.absent ≠ .ignored) (by decide : 0 < 256) rfl rfl rfl (by decide), rfl,
    by decide, by decide, ?_, ?_, ?_, ?_, ?_⟩
  · rw [hw, if_pos rfl]
    rfl
  · rw [hw, if_pos rfl]
  · rw [hw, if_pos rfl]
    rfl
  · rw [hw, if_pos rfl]
    fin_cases h <;> decide
  · intro i hi
    rw [hw, if_neg hi, demo_word]
    exact ⟨rfl, rfl⟩

/-- A running motor whose words are all invalid. -/
theorem met_DisturbedWordsAreHandled_invalid :
    let p := { withMotor 1300#32 1300 .i0 drum with store := Store.initial }
    (∀ pos, (p.store.word pos).valid = false) ∧ (p.motor .i0).slot.state = .running :=
  ⟨fun pos => by simp [Store.word, Store.initial], rfl⟩

/-- ACCEPT 4 written in full by one segment; CONFIG's second segment on an open staging; a segment out of turn. -/
theorem met_WriteRecordStoresTheWords :
    (demo 0#32 0).Serving 1 ∧ (demo 0#32 0).link.errors < 128 ∧ targetOf 1#4 0#2 4#8 = some (.accept 4) ∧
      targetOf 1#4 1#2 4#8 = none ∧ targetOf 0#4 1#2 0#8 = some .config ∧ (demo 0#32 0).link.staging = none ∧
      (∀ pos ∈ RecordId.config.positions, (demoStore.word pos).valid = true → (demoStore.word pos).broken pos = false) ∧
      ((List.range 8).all fun k => (0xFF00#16 ||| 0x00FF#16).getLsbD k) = true :=
  ⟨met_serving.1, met_serving.2, rfl, rfl, rfl, rfl, demo_whole _, by decide⟩

/-- A write that leaves words out of a record that is not valid; a plan whose budget is at its bound of six, and beyond. -/
theorem met_WriteRecordStoresTheWords_checks :
    (Part.poweredOn true (.const true)).Serving 1 ∧ (Part.poweredOn true (.const true)).store.recordValid .config = false ∧
      (1#16).getLsbD 1 = false ∧
      planBudget (planEntries [[1, 0, 7, 0, 0, 0, 0, 0], [1, 0, 8, 0, 0, 0, 0, 0]]) = 6 ∧
      planBudget (planEntries [[1, 0, 7, 0, 0, 0, 0, 0], [1, 0, 8, 0, 0, 0, 0, 0], [1, 4, 9, 0, 0, 0, 0, 0]]) = 7 ∧
      (withMotor 1300#32 1300 .i0 drum).Serving 1 ∧ ((withMotor 1300#32 1300 .i0 drum).motor .i0).slot.state = .running ∧
      (withMotor 1300#32 1300 .i0 drum).store.Readable ((RecordId.profile .i0).pos 0) :=
  ⟨serving 1 rfl (by decide) (by decide) (by decide) rfl rfl (by decide), by decide, by decide, by decide, by decide,
    served _ _ rfl 1 (by decide), rfl, demo_one _⟩

/-- CONFIG written with a full mask and another P (6000, motors OFF) while word 4 cannot be corrected and a bus request waits. -/
theorem met_WriteRecordStoresTheWords_full :
    let p := { demo 0#32 0 with
      store := demoStore.setWord 4 { demoWord 4 with flips := .two }
      sampler := { Sampler.initial with busReq := .waiting 6 0#32 100#32, waiting := [busItem] } }
    p.Serving 1 ∧ ((List.range 8).all fun k => (0x00FF#16).getLsbD k) = true ∧ p.sampler.busReq = .waiting 6 0#32 100#32 ∧
      (6000 : Nat) ≠ p.tb.p ∧ RecordId.config.fieldsOk 5000 ([6000] :: (tableWords.take 8).tail) = true :=
  ⟨serving 1 rfl (by decide) (by decide) (by decide) rfl rfl (by decide), by decide, rfl, by decide, by decide⟩

/-- ACCEPT 4 written (R155, R174): enabled 1, match 5, mask 255, destination 2 stand in the store. -/
theorem test_write_accept :
    (match exec (.writeRecord 1#8 1#4 0#2 true 4#8 1#16 ([1#8, 5#8, 255#8, 2#8] ++ List.replicate 20 0#8)) (st (demo 0#32 0)) with
    | .next t => ((t.part.store.word 12).fields, t.part.up.queue.map (·.body))
    | .fault _ | .refused _ => ([], [])) = ([1, 5, 255, 2], [FrameBody.reply ⟨1#8, 2#8, .ok, []⟩]) := by decide +kernel

/-- R170: the write staging is one item that may be absent: a presence byte, and five bytes more where it is there. -/
theorem test_staging_item :
    (stagingItem none).length = 6 ∧ (stagingItem (some ⟨1#4, 4#8, 0xFF01#16, 9#8, 2, []⟩)) = [1#8, 1#8, 4#8, 0xFF#8, 0x01#8, 2#8] := by decide

/-- A section with pages, and its first page. -/
theorem met_StatusPagesAreAnswered : (demo 0#32 0).Serving 1 ∧ 8 ≤ (8#4).toNat ∧ sectionOf 7#4 = some .device ∧
    (pagesFrom [] ({ demo 0#32 0 with link := (demo 0#32 0).link.served } : Part).deviceItems).length = 1 :=
  ⟨met_serving.1, by decide, rfl, by decide⟩

theorem met_ClearCountsClearsTheSection : (demo 0#32 0).Serving 1 ∧ 8 ≤ (15#4).toNat ∧ (3#4).toNat = Ix3.i2.toNat + 1 :=
  ⟨met_serving.1, by decide, by decide⟩

end Sys2Proof.Tests
end

section
/-! A command as a change of the part, and the part while EN is low (R32, R123, R162). -/

namespace Sys2Proof

open Machine

/-- What a timed command does at its event's instant. -/
def Instr.timedWork : Instr → Option (Part → Part)
  | .masterCycleEnd => some Part.cycleEnd
  | .firstValley m => some fun p => p.openFirst m
  | .valley m => some fun p => p.openNext m
  | .edge m => some fun p => p.modMotor m (·.makeEdges p.now)
  | .pendingTurnOn m x g => some fun p => p.modMotor m (·.carryOut p.now x g)
  | .rampCommutation m => some fun p => p.rampDue m
  | .detectedCommutation m => some fun p => p.detectedDue m
  | .searchTimeout m => some fun p => p.timeoutDue m
  | .waitingListJoin m entry => some fun p => p.joinPlaced m entry
  | .holdEligible h => some fun p => p.modSampler fun sa => { sa with holds := sa.holds.set h (sa.holds.get h).acquire }
  | .freeze => some Part.grantHead
  | .deadline r => some fun p => p.missDeadline r
  | .conversionComplete code => some fun p => p.converted code
  | .busRequestPlace => some Part.busPlace
  | _ => none

/-- What the end of a frame does to the upstream frame, and the frame's own effect. -/
def Instr.frameWork : Instr → Option ((Upstream → Upstream) × FrameEffect)
  | .idleFrame => some (.consume, fun p => p.goodFrame fun _ p => ([], p))
  | .setpoint stream header tag applyAt du dv dw => some (.consume, fun p => p.goodFrame fun _ p =>
      (p.setpoint stream header { tag := tag, applyAt := applyAt, duty := ⟨du, dv, dw⟩ }).gather)
  | .badFrame why => some (.consume, fun p => ((p.modLink (·.countBad why)).badFrame).gather)
  | .abortedTransfer =>
    some (.leaveUnconsumed, fun p => ((p.modLink fun l => { l with aborted := bump l.aborted }).badFrame).gather)
  | .readRecord tag region segment index => request tag 1#8 fun _ p => p.readRecord region segment index
  | .writeRecord tag region segment last index mask params =>
    request tag 2#8 fun degraded p => p.writeFrame degraded ⟨tag, region, segment, last, index, mask, params⟩
  | .arm tag n => request tag 3#8 fun degraded p => p.motorCmd n degraded true Part.doArm
  | .disarm tag n => request tag 3#8 fun degraded p => p.motorCmd n degraded false Part.doDisarm
  | .start tag n => request tag 3#8 fun degraded p => p.motorCmd n degraded true Part.doStart
  | .park tag n => request tag 3#8 fun degraded p => p.motorCmd n degraded false Part.doPark
  | .halt tag n => request tag 3#8 fun degraded p => p.motorCmd n degraded false Part.doHalt
  | .release tag n => request tag 3#8 fun degraded p => p.motorCmd n degraded false Part.doRelease
  | .ackFault tag n => request tag 3#8 fun degraded p => p.motorCmd n degraded false Part.doAck
  | .readStatus tag sect page => request tag 4#8 fun _ p => p.readStatus sect page
  | .clearCounts tag sect => request tag 5#8 fun _ p => p.clearCounts sect
  | .resetPart tag => request tag 6#8 fun degraded p => p.doResetPart degraded
  | .badRequest tag code => request tag (sentCode code) fun _ p => p.answer .badRequest (p.refusalData code)
  | _ => none
where
  request (tag code : Byte) (f : Bool → Part → (ReplyCode × List Byte) × Part) :
    Option ((Upstream → Upstream) × FrameEffect) :=
    some (.consume, fun p => p.goodFrame fun degraded p => p.request tag code (f degraded))

end Sys2Proof

namespace Sys2Proof.Machine

/-- The part after a command. -/
def Part.after (p : Part) (c : Instr) : Part :=
  match exec c { part := p, pending := [] } with
  | .next t => t.part
  | .fault _ | .refused _ => p

/-- Every command changes the part alone, whatever waits behind it. -/
theorem exec_eq_after (c : Instr) (s : State) : exec c s = .next { s with part := s.part.after c } := by
  cases c <;> rfl

theorem Part.after_of_timedWork (p : Part) {c : Instr} {f : Part → Part} (h : c.timedWork = some f) :
    p.after c = p.takeTimed c f := by
  cases c <;> cases h <;> rfl

theorem Part.after_of_frameWork (p : Part) {c : Instr} {fin : Upstream → Upstream} {act : FrameEffect}
    (h : c.frameWork = some (fin, act)) : p.after c = p.endTransfer fin act := by
  cases c <;> cases h <;> rfl

/-- A command is timed, or a frame's end, or one of the seven of the pins. -/
theorem instr_kinds (c : Instr) : (∃ f, c.timedWork = some f) ∨ (∃ fin act, c.frameWork = some (fin, act)) ∨
    (∃ e pins, c = .powerOn e pins) ∨ c = .enFall ∨ (∃ pins, c = .enableReset pins) ∨ c = .syncEdge ∨
    (∃ m, c = .ocPinFall m) ∨ (∃ m, c = .ocPinRise m) ∨ c = .transferStart := by
  cases c with
  | masterCycleEnd | firstValley | valley | edge | pendingTurnOn | rampCommutation | detectedCommutation | searchTimeout
  | waitingListJoin | holdEligible | freeze | deadline | conversionComplete | busRequestPlace => exact .inl ⟨_, rfl⟩
  | idleFrame | setpoint | badFrame | abortedTransfer | readRecord | writeRecord | arm | disarm | start | park | halt
  | release | ackFault | readStatus | clearCounts | resetPart | badRequest => exact .inr (.inl ⟨_, _, rfl⟩)
  | powerOn e pins => exact .inr (.inr (.inl ⟨e, pins, rfl⟩))
  | enFall => exact .inr (.inr (.inr (.inl rfl)))
  | enableReset pins => exact .inr (.inr (.inr (.inr (.inl ⟨pins, rfl⟩))))
  | syncEdge => exact .inr (.inr (.inr (.inr (.inr (.inl rfl)))))
  | ocPinFall m => exact .inr (.inr (.inr (.inr (.inr (.inr (.inl ⟨m, rfl⟩))))))
  | ocPinRise m => exact .inr (.inr (.inr (.inr (.inr (.inr (.inr (.inl ⟨m, rfl⟩)))))))
  | transferStart => exact .inr (.inr (.inr (.inr (.inr (.inr (.inr (.inr rfl)))))))

/-- The part is as before but for the mark of a transfer that is not taken. -/
def Part.Muted (p t : Part) : Prop :=
  ∃ tr, t = { p with up := { p.up with transfer := tr } } ∧ (tr = .absent ∨ tr = .ignored)

theorem Part.muted_self (p : Part) (h : p.up.transfer = .absent ∨ p.up.transfer = .ignored) : p.Muted p :=
  ⟨p.up.transfer, rfl, h⟩

theorem Part.takeTimed_enLow (p : Part) (e : Instr) (f : Part → Part) (he : p.en = false) : p.takeTimed e f = p := by
  simp [Part.takeTimed, he]

/-- R32, R162: the end of a transfer while EN is low takes no downstream frame. -/
theorem Part.endTransfer_enLow (p : Part) (fin : Upstream → Upstream) (act : FrameEffect) (he : p.en = false)
    (h : p.up.transfer = .absent ∨ p.up.transfer = .ignored) : p.Muted (p.endTransfer fin act) := by
  unfold Part.endTransfer
  rcases h with h | h
  · simp only [h, he, Bool.false_eq_true, if_false]
    exact p.muted_self (.inl h)
  · simp only [h]
    exact ⟨.absent, rfl, .inl rfl⟩

/-- R32: what a command that is no reset comes to while EN is low. -/
theorem Part.after_enLow (p : Part) (c : Instr) (he : p.en = false)
    (ht : p.up.transfer = .absent ∨ p.up.transfer = .ignored) (h1 : ∀ e pins, c ≠ .powerOn e pins)
    (h2 : ∀ pins, c ≠ .enableReset pins) : p.Muted (p.after c) := by
  have self := p.muted_self ht
  rcases instr_kinds c with
    ⟨f, hf⟩ | ⟨fin, act, hf⟩ | ⟨e, pins, rfl⟩ | rfl | ⟨pins, rfl⟩ | rfl | ⟨m, rfl⟩ | ⟨m, rfl⟩ | rfl
  · rwa [p.after_of_timedWork hf, p.takeTimed_enLow c f he]
  · rw [p.after_of_frameWork hf]
    exact p.endTransfer_enLow fin act he ht
  · exact absurd rfl (h1 e pins)
  · simpa [Part.after, exec, execEnFall, he] using self
  · exact absurd rfl (h2 pins)
  · simpa [Part.after, exec, execSyncEdge, he] using self
  · simpa [Part.after, exec, execOcPinFall, he] using self
  · simpa [Part.after, exec, execOcPinRise, he] using self
  · rcases ht with ht | ht
    · simp only [Part.after, exec, execTransferStart, ht, he]
      exact ⟨.ignored, rfl, .inr rfl⟩
    · simpa only [Part.after, exec, execTransferStart, ht] using self

/-- Settles O3: every command but the two resets is a timed one, a frame's end, or one that finds no edge. -/
theorem enLowTakesNothing : Obligations.EnLowTakesNothing := by
  intro c s he hheld h1 h2
  obtain ⟨tr, ht, hm⟩ := s.part.after_enLow c he (hheld.transfer he) h1 h2
  exact ⟨tr, by rw [exec_eq_after, ht], hm⟩

end Sys2Proof.Machine
end

section
/-! What a read of the table store does to the part beside its answer (R157, R158, R142). -/

namespace Sys2Proof.Machine

/-- R157: a read that gives data corrects the store at most. -/
theorem Part.readWord_some {p t : Part} {pos : Fin 82} {fs : List Nat} (h : p.readWord pos = (some fs, t)) :
    ∃ st, t = { p with store := st } := by
  unfold Part.readWord at h
  simp only at h
  split at h
  · cases h
  · split at h
    · cases h
    · split at h <;> cases h
      all_goals exact ⟨_, rfl⟩

/-- R142: the same of a read for a motor. -/
theorem Part.readFor_some {p t : Part} {m : Slot} {pos : Fin 82} {fs : List Nat} (h : p.readFor m pos = (some fs, t)) :
    ∃ st, t = { p with store := st } := by
  unfold Part.readFor at h
  split at h
  · cases h
    exact readWord_some ‹_›
  · cases h

/-- R142: the same of several reads for a motor. -/
theorem Part.readAllFor_some {m : Slot} {l : List (Fin 82)} {p t : Part} {ws : List (List Nat)}
    (h : p.readAllFor m l = (some ws, t)) : ∃ st, t = { p with store := st } := by
  induction l generalizing p ws with
  | nil =>
    cases h
    exact ⟨_, rfl⟩
  | cons pos l ih =>
    unfold Part.readAllFor at h
    split at h
    · cases h
    · rename_i hr
      split at h <;> cases h
      obtain ⟨st, rfl⟩ := readFor_some hr
      obtain ⟨st', rfl⟩ := ih ‹_›
      exact ⟨st', rfl⟩

end Sys2Proof.Machine
end

section
/-! The invariant of R16 while EN is high: what each operation needs so that it is kept. A change of a gate's level needs a
motor that drives its gates; so an operation that ends in such a change carries the fact that its motor is RUNNING. -/

namespace Sys2Proof.Machine

/-! ## Motors at rest -/

/-- R16: a motor whose state drives no gate has all its gates off. -/
def Motor.RestsOff (q : Motor) : Prop := q.slot.gatesOff = true → q.gates.AllOff

/-- EN is high, and every motor whose state drives no gate has all its gates off. -/
def Part.RestsOff (p : Part) : Prop := p.en = true ∧ ∀ m, (p.motor m).RestsOff

/-- The same of a part in which motor m is RUNNING. -/
def Part.Drives (p : Part) (m : Slot) : Prop := p.RestsOff ∧ (p.motor m).slot.state = .running

/-- An operation for motor m that answers leaves the motor RUNNING; one that gives no answer may have stopped it. -/
def Answers {α : Type} (m : Slot) (r : Option α × Part) : Prop :=
  r.2.RestsOff ∧ (r.1.isSome = true → (r.2.motor m).slot.state = .running)

theorem Part.Drives.answers {α : Type} {t : Part} {m : Slot} (h : t.Drives m) (a : α) : Answers m (some a, t) :=
  ⟨h.1, fun _ => h.2⟩

theorem Part.RestsOff.noAnswer {t : Part} (h : t.RestsOff) (α : Type) (m : Slot) : Answers m ((none : Option α), t) :=
  ⟨h, fun e => absurd e (by simp)⟩

theorem Answers.drives {α : Type} {m : Slot} {a : α} {t : Part} (h : Answers m (some a, t)) : t.Drives m := ⟨h.1, h.2 rfl⟩

theorem SlotBlock.gatesOff_of_driven {sl : SlotBlock} (h : sl.state = .running ∨ sl.state = .safeStop ∨ sl.state = .tripped) :
    sl.gatesOff = false := by
  rcases h with h | h | h <;> simp [SlotBlock.gatesOff, h]

theorem Motor.restsOff_of_driven {q : Motor}
    (h : q.slot.state = .running ∨ q.slot.state = .safeStop ∨ q.slot.state = .tripped) : q.RestsOff := fun e => by
  rw [SlotBlock.gatesOff_of_driven h] at e
  exact absurd e Bool.false_ne_true

theorem Motor.restsOff_allOff (q : Motor) (now : Tick) : (q.allOff now).RestsOff := fun _ => GateStage.allOff_allOff _ _

/-- Only motor m differs, and it rests as it must. -/
theorem Part.RestsOff.of_others {p t : Part} (m : Slot) (h : p.RestsOff) (en : t.en = p.en)
    (others : ∀ k, k ≠ m → t.motor k = p.motor k) (hm : (t.motor m).RestsOff) : t.RestsOff := by
  refine ⟨en.trans h.1, fun k => ?_⟩
  by_cases hk : k = m
  · rwa [hk]
  · rw [others k hk]
    exact h.2 k

theorem Part.RestsOff.modMotor {p : Part} {m : Slot} {f : Motor → Motor} (h : p.RestsOff) (hm : (f (p.motor m)).RestsOff) :
    (p.modMotor m f).RestsOff :=
  h.of_others m rfl (fun _ hk => Part.modMotor_motor_ne p f hk) (by rwa [Part.modMotor_motor_self])

theorem Part.Drives.modMotor {p : Part} {m : Slot} {f : Motor → Motor} (h : p.Drives m)
    (hs : (f (p.motor m)).slot = (p.motor m).slot) : (p.modMotor m f).Drives m := by
  have hrun : (f (p.motor m)).slot.state = .running := hs ▸ h.2
  exact ⟨h.1.modMotor (Motor.restsOff_of_driven (.inl hrun)), by rwa [Part.modMotor_motor_self]⟩

/-- An update of every motor that leaves its slot and its gates alone. -/
theorem Part.RestsOff.mapMotors {p : Part} (h : p.RestsOff) (f : Motor → Motor) (hf : ∀ q : Motor, q.RestsOff → (f q).RestsOff) :
    ({ p with motors := p.motors.map f } : Part).RestsOff := by
  refine ⟨h.1, fun k => ?_⟩
  simp only [Part.motor, Triple.get_map]
  exact hf _ (h.2 k)

theorem Part.RestsOff.eachMotor {p : Part} {f : Slot → Part → Part} (h : p.RestsOff)
    (hf : ∀ m q, q.RestsOff → (f m q).RestsOff) : (p.eachMotor f).RestsOff := hf _ _ (hf _ _ (hf _ _ h))

/-! ## Stops and trips -/

theorem Part.cancelUnfrozen_motor_self (p : Part) (m : Slot) :
    (p.cancelUnfrozen m).motor m = { p.motor m with
      samp := { (p.motor m).samp with missedState := bumpBy (p.motor m).samp.missedState (p.motor m).scheds.unfrozen }
      scheds := (p.motor m).scheds.mapReqs Request.cancel } := by
  simp only [Part.cancelUnfrozen, Part.modSampler_motor, Part.modMotor_motor_self]

theorem Part.RestsOff.cancelUnfrozen {p : Part} (h : p.RestsOff) (m : Slot) : (p.cancelUnfrozen m).RestsOff :=
  h.of_others m rfl (fun _ hk => p.cancelUnfrozen_motor_ne hk) (by
    rw [p.cancelUnfrozen_motor_self]
    exact h.2 m)

/-- R28: a motor that leaves RUNNING or START_PENDING and is then given its gates. -/
theorem Part.RestsOff.leaveRun {p : Part} {m : Slot} {f : Motor → Motor} (h : p.RestsOff) (st : MotorState)
    (c : Option StopCause) (hm : (f ((p.leaveRun m st c).motor m)).RestsOff) : ((p.leaveRun m st c).modMotor m f).RestsOff := by
  refine h.of_others m rfl (fun k hk => ?_) (by rwa [Part.modMotor_motor_self])
  rw [Part.modMotor_motor_ne _ _ hk, Part.leaveRun_motor_ne _ _ _ hk]

theorem Part.leaveRun_state (p : Part) (m : Slot) (st : MotorState) (c : Option StopCause) :
    ((p.leaveRun m st c).motor m).slot.state = st := by
  rw [(p.leaveRun_motor_self m st c).1]

theorem Part.RestsOff.safeStop {p : Part} (h : p.RestsOff) (c : StopCause) (m : Slot) : (p.safeStop c m).RestsOff := by
  by_cases hd : (p.motor m).slot.state = .running ∨ (p.motor m).slot.state = .startPending
  · rw [p.safeStop_driven c m hd]
    exact h.leaveRun (f := (·.safeAction p.now)) .safeStop (some c)
      (Motor.restsOff_of_driven (.inr (.inl (p.leaveRun_state m .safeStop (some c)))))
  · rwa [p.safeStop_idle c m (fun e => hd (.inl e)) fun e => hd (.inr e)]

theorem Part.RestsOff.stopAll {p : Part} (h : p.RestsOff) (c : StopCause) : (p.stopAll c).RestsOff :=
  h.eachMotor fun m _ hq => hq.safeStop c m

theorem Part.RestsOff.reportFault {p : Part} (h : p.RestsOff) (m : Slot) : (p.reportFault m).RestsOff := by
  unfold Part.reportFault
  split <;> exact h

theorem Part.RestsOff.trip {p : Part} (h : p.RestsOff) (e : TripEvent) (m : Slot) : (p.trip e m).RestsOff := by
  have first : ((p.leaveRun m .tripped none).modMotor m (·.tripped e p.now)).RestsOff :=
    h.leaveRun .tripped none (Motor.restsOff_of_driven (.inr (.inr rfl)))
  unfold Part.trip
  split
  · exact first.reportFault m
  · split
    · exact first.reportFault m
    · exact h
  · split
    · exact (h.modMotor (Motor.restsOff_of_driven (.inr (.inr rfl)))).reportFault m
    · exact h
  · split
    · exact (h.modMotor fun _ => GateStage.allOff_allOff _ _).reportFault m
    · exact h
  · exact h
  · exact h
  · exact h

theorem Part.RestsOff.tableTrip {p : Part} (h : p.RestsOff) (pos : Fin 82) (m : Slot) : (p.tableTrip pos m).RestsOff := by
  unfold Part.tableTrip
  split
  · exact h.trip _ m
  · exact h

/-! ## Reads of the store -/

theorem Part.RestsOff.uncorrectable {p : Part} (h : p.RestsOff) (pos : Fin 82) : (p.uncorrectable pos).RestsOff := by
  have hn : ((p.modStore (·.invalidate pos)).notice (.tableInvalid (regionIndex pos).1 (regionIndex pos).2)).RestsOff := h
  unfold Part.uncorrectable
  simp only
  split
  · exact hn.eachMotor fun m _ hq => hq.tableTrip pos m
  · exact hn
  · exact hn.tableTrip pos _

theorem Part.RestsOff.readWord {p : Part} (h : p.RestsOff) (pos : Fin 82) : (p.readWord pos).2.RestsOff := by
  unfold Part.readWord
  simp only
  split
  · exact h
  · split
    · exact h.uncorrectable pos
    · split <;> exact h

theorem Part.RestsOff.readFor {p : Part} (h : p.RestsOff) (m : Slot) (pos : Fin 82) : (p.readFor m pos).2.RestsOff := by
  have hw := h.readWord pos
  unfold Part.readFor
  generalize p.readWord pos = r at hw
  obtain ⟨_ | fs, t⟩ := r
  · exact Part.RestsOff.tableTrip hw pos m
  · exact hw

theorem Part.RestsOff.readAllFor {p : Part} (h : p.RestsOff) (m : Slot) (l : List (Fin 82)) :
    (p.readAllFor m l).2.RestsOff := by
  induction l generalizing p with
  | nil => exact h
  | cons pos l ih =>
    have hr := h.readFor m pos
    unfold Part.readAllFor
    generalize p.readFor m pos = r at hr
    obtain ⟨_ | fs, t⟩ := r
    · exact hr
    · have hl := ih (p := t) hr
      simp only
      generalize t.readAllFor m l = r' at hl
      obtain ⟨_ | ws, u⟩ := r' <;> exact hl

theorem Part.RestsOff.readWords {p : Part} (h : p.RestsOff) (l : List (Fin 82)) : (p.readWords l).RestsOff := by
  induction l generalizing p with
  | nil => exact h
  | cons pos l ih => exact ih (h.readWord pos)

theorem Part.RestsOff.readConfig {p : Part} (h : p.RestsOff) (ks : List Nat) : (p.readConfig ks).2.RestsOff := by
  unfold Part.readConfig
  simp only
  split <;> exact h.readWords _

theorem Part.Drives.withStore {p : Part} {m : Slot} (h : p.Drives m) (st : Store) : ({ p with store := st } : Part).Drives m := h

theorem Part.Drives.readFor {p : Part} {m : Slot} (h : p.Drives m) (pos : Fin 82) : Answers m (p.readFor m pos) := by
  have hr := h.1.readFor m pos
  rcases e : p.readFor m pos with ⟨_ | fs, t⟩
  · rw [e] at hr
    exact hr.noAnswer _ m
  · obtain ⟨st, rfl⟩ := Part.readFor_some e
    exact (h.withStore st).answers fs

theorem Part.Drives.readAllFor {p : Part} {m : Slot} (h : p.Drives m) (l : List (Fin 82)) : Answers m (p.readAllFor m l) := by
  have hr := h.1.readAllFor m l
  rcases e : p.readAllFor m l with ⟨_ | ws, t⟩
  · rw [e] at hr
    exact hr.noAnswer _ m
  · obtain ⟨st, rfl⟩ := Part.readAllFor_some e
    exact (h.withStore st).answers ws

end Sys2Proof.Machine
end

section
/-! The invariant of R16 along the commands of a motor: valleys, edges, commutations, samples. -/

namespace Sys2Proof.Machine

/-! ## Commutations (chapter 5) -/

theorem Part.Drives.modRun {p : Part} {m : Slot} (h : p.Drives m) (f : SeqRun → SeqRun) : (p.modRun m f).Drives m :=
  h.modMotor rfl

theorem Motor.commutateIn_slot (q : Motor) (pp : Nat) (now : Tick) (c : Carrier) (r : SeqRun) (kind : CommKind) (late : Bool)
    (next : Option Nat) : (q.commutateIn pp now c r kind late next).slot = q.slot := by
  unfold Motor.commutateIn
  simp only
  split <;> rfl

theorem Part.Drives.makeCommutation {p : Part} {m : Slot} (h : p.Drives m) (kind : CommKind) (late postponed : Bool)
    (next : Option Nat) : (p.makeCommutation m kind late postponed next).Drives m := by
  have hc : (p.cancelUnfrozen m).Drives m :=
    ⟨h.1.cancelUnfrozen m, by rw [p.cancelUnfrozen_motor_self]; exact h.2⟩
  unfold Part.makeCommutation
  split
  · refine hc.modMotor ?_
    simp only
    split
    · rfl
    · exact Motor.commutateIn_slot _ _ _ _ _ _ _ _
  · exact h

theorem Part.Drives.rampInterval {p : Part} {m : Slot} (h : p.Drives m) (t : Nat) : Answers m (p.rampInterval m t) := by
  have hr := h.readAllFor [(RecordId.profile m).pos 11, (RecordId.profile m).pos 12]
  unfold Part.rampInterval
  generalize p.readAllFor m _ = r at hr
  obtain ⟨_ | ws, u⟩ := r
  · exact hr.1.noAnswer _ m
  · exact hr.drives.answers _

theorem Part.Drives.makeWithInterval {p : Part} {m : Slot} (h : p.Drives m) (kind : CommKind) (late postponed : Bool) :
    (p.makeWithInterval m kind late postponed).RestsOff := by
  unfold Part.makeWithInterval
  split
  · rename_i t _ _ _
    have hr := h.rampInterval t
    generalize p.rampInterval m t = r at hr
    obtain ⟨_ | next, u⟩ := r
    · exact hr.1
    · exact (hr.drives.makeCommutation _ _ _ _).1
  · exact (h.makeCommutation _ _ _ _).1

theorem Part.Drives.commutate {p : Part} {m : Slot} (h : p.Drives m) (kind : CommKind) (late : Bool) :
    (p.commutate m kind late).RestsOff := by
  unfold Part.commutate
  split
  · exact h.1.modMotor (h.1.2 m)
  · exact h.makeWithInterval kind late false

theorem Part.RestsOff.stall {p : Part} (h : p.RestsOff) (m : Slot) (step : Fin 6) (count : Nat) :
    (p.stall m step count).RestsOff := h.trip _ m

theorem Part.Drives.rampAtHold {p : Part} {m : Slot} (h : p.Drives m) (step : Fin 6) (t confirm hold : Nat) :
    (p.rampAtHold m step t confirm hold).RestsOff := by
  have hr := h.readFor ((RecordId.profile m).pos 13)
  unfold Part.rampAtHold
  generalize p.readFor m _ = r at hr
  obtain ⟨_ | fs, u⟩ := r
  · exact hr.1
  · simp only
    split
    · exact hr.1.stall m step _
    · exact (hr.drives.modRun _).commutate _ _

theorem Part.Drives.rampDue {p : Part} {m : Slot} (h : p.Drives m) : (p.rampDue m).RestsOff := by
  unfold Part.rampDue
  split
  · split
    · have hr := h.readFor ((RecordId.profile m).pos 12)
      generalize p.readFor m _ = r at hr
      obtain ⟨_ | fs, u⟩ := r
      · exact hr.1
      · simp only
        split
        · exact hr.drives.rampAtHold _ _ _ _
        · exact hr.drives.commutate _ _
    all_goals exact h.1
  · exact h.1

theorem Part.Drives.detectedDue {p : Part} {m : Slot} (h : p.Drives m) : (p.detectedDue m).RestsOff := by
  unfold Part.detectedDue
  split
  · exact h.commutate _ _
  · exact h.1

theorem Part.Drives.timeoutDue {p : Part} {m : Slot} (h : p.Drives m) : (p.timeoutDue m).RestsOff := by
  unfold Part.timeoutDue
  split
  · split
    · split
      · exact h.1.stall m _ _
      · exact Part.Drives.commutate (Part.Drives.modMotor (h.modRun _) rfl) _ _
    all_goals exact h.1
  · exact h.1

/-! ## Crossings (R77, R79, R83, R84) -/

theorem Part.Drives.scheduleDetected {p : Part} {m : Slot} (h : p.Drives m) (tzc : Tick) (tStep adv : Nat) :
    (p.scheduleDetected m tzc tStep adv).RestsOff := by
  unfold Part.scheduleDetected
  simp only
  split
  · exact h.commutate _ _
  · split
    · exact (h.modRun _).1
    · exact Part.Drives.commutate (Part.Drives.modMotor h rfl) _ _

theorem Part.Drives.handover {p : Part} {m : Slot} (h : p.Drives m) (t : Nat) (tzc : Tick) : (p.handover m t tzc).RestsOff := by
  have hr := h.readFor ((RecordId.profile m).pos 9)
  unfold Part.handover
  generalize p.readFor m _ = r at hr
  obtain ⟨_ | fs, u⟩ := r
  · exact hr.1
  · exact (hr.drives.modRun _).scheduleDetected _ _ _

theorem Part.Drives.confirmCrossing {p : Part} {m : Slot} (h : p.Drives m) (t confirm hold : Nat) (tzc : Tick) :
    (p.confirmCrossing m t confirm hold tzc).RestsOff := by
  have hr := (h.modRun fun r => { r with data := .ramp t (min (confirm + 1) 15) hold, stepConfirmed := true }).readFor
    ((RecordId.profile m).pos 12)
  unfold Part.confirmCrossing
  simp only
  generalize Part.readFor _ m _ = r at hr
  obtain ⟨_ | fs, u⟩ := r
  · exact hr.1
  · simp only
    split
    · exact hr.drives.handover _ _
    · exact hr.1

theorem Part.Drives.closedCrossing {p : Part} {m : Slot} (h : p.Drives m) (tRef : Tick) (f : Nat) (tzc : Tick) :
    (p.closedCrossing m tRef f tzc).RestsOff := by
  have hr := h.readAllFor [(RecordId.profile m).pos 13, (RecordId.profile m).pos 14, (RecordId.profile m).pos 9]
  unfold Part.closedCrossing
  simp only
  generalize p.readAllFor m _ = r at hr
  obtain ⟨_ | ws, u⟩ := r
  · exact hr.1
  · exact (hr.drives.modRun _).scheduleDetected _ _ _

theorem Part.Drives.actOnCrossing {p : Part} {m : Slot} (h : p.Drives m) (data : SubData) (early : Bool) (tzc : Tick) :
    (p.actOnCrossing m data early tzc).RestsOff := by
  unfold Part.actOnCrossing
  split
  · split
    · exact h.1
    · exact h.confirmCrossing _ _ _ _
  · exact h.closedCrossing _ _ _
  · exact h.1

theorem Part.Drives.useSample {p : Part} {m : Slot} (h : p.Drives m) (sched : Nat) (r : SeqRun) (se : Search) (x : Int)
    (at_ : Tick) : (p.useSample m sched r se x at_).RestsOff := by
  have found : ∀ early, (p.crossingFound m sched early).Drives m := fun early => h.modMotor rfl
  unfold Part.useSample
  split
  · exact (h.modRun _).1
  · exact (found true).actOnCrossing _ _ _
  · exact (found false).actOnCrossing _ _ _

theorem Part.RestsOff.judgeSample {p : Part} (h : p.RestsOff) (m : Slot) (sched : Nat) (inStep : Bool) (at_ : Tick)
    (float bus : Code) : (p.judgeSample m sched inStep at_ float bus).RestsOff := by
  unfold Part.judgeSample
  split
  · rename_i r hrun _
    have hd : p.Drives m := ⟨h, by simpa [Part.running] using hrun⟩
    split
    · split
      · have hr := hd.readFor ((RecordId.profile m).pos 8)
        generalize p.readFor m _ = o at hr
        obtain ⟨_ | fs, u⟩ := o
        · exact hr.1
        · simp only
          split
          · exact hr.drives.useSample _ _ _ _ _
          · exact hr.1
      · exact h
    · exact h
  · exact h

/-! ## Valleys (chapters 2 to 6) -/

theorem Part.Drives.valleySetpoint {p : Part} {m : Slot} (h : p.Drives m) (period : Byte) :
    Answers m (p.valleySetpoint m period) := by
  have hq : (p.modMotor m fun q =>
      { q with setq := ((p.motor m).setq.decide period (p.motor m).setq.recs).2 }).Drives m := h.modMotor rfl
  unfold Part.valleySetpoint
  simp only
  split
  · have hr := hq.readFor ((RecordId.profile m).pos 15)
    generalize Part.readFor _ m _ = r at hr
    obtain ⟨_ | fs, u⟩ := r
    · exact hr.1.noAnswer _ m
    · simp only
      split
      · exact (hr.1.safeStop .starved m).noAnswer _ m
      · exact hr.drives.answers _
  · exact hq.answers _

theorem Part.Drives.planSineDrive {p : Part} {m : Slot} (h : p.Drives m) (sense : Sense) (due : List PlanEntry) :
    Answers m (p.planSineDrive m sense due) := by
  have hr := h.readAllFor [(RecordId.profile m).pos 2, (RecordId.profile m).pos 3]
  unfold Part.planSineDrive
  simp only
  generalize p.readAllFor m _ = r at hr
  obtain ⟨_ | ws, u⟩ := r
  · exact hr.1.noAnswer _ m
  · exact Part.Drives.answers (Part.Drives.modMotor hr.drives rfl) _

theorem Part.Drives.moveSubPhase {p : Part} {m : Slot} (h : p.Drives m) (n t : Nat) (dir : Direction) (step : Fin 6) :
    Answers m (p.moveSubPhase m n t dir step) := by
  unfold Part.moveSubPhase
  split
  · exact h.answers _
  · split
    · split
      · exact h.answers _
      · have hr := h.readFor ((RecordId.profile m).pos 12)
        generalize p.readFor m _ = r at hr
        obtain ⟨_ | fs, u⟩ := r
        · exact hr.1.noAnswer _ m
        · exact Part.Drives.answers (Part.Drives.modMotor hr.drives rfl) _
    all_goals exact h.answers _

theorem Part.Drives.planBlockDrive {p : Part} {m : Slot} (h : p.Drives m) (dir : Direction) (step : Fin 6) :
    Answers m (p.planBlockDrive m dir step) := by
  have hr := h.readAllFor [(RecordId.profile m).pos 2, (RecordId.profile m).pos 10, (RecordId.profile m).pos 11]
  unfold Part.planBlockDrive
  simp only
  generalize p.readAllFor m _ = r at hr
  obtain ⟨_ | ws, u⟩ := r
  · exact hr.1.noAnswer _ m
  · have hm := hr.drives.moveSubPhase (recField ws 1 1) (recField ws 2 0) dir step
    simp only
    generalize u.moveSubPhase m _ _ _ _ = r' at hm
    obtain ⟨_ | run, v⟩ := r'
    · exact hm.1.noAnswer _ m
    · exact Part.Drives.answers (Part.Drives.modMotor hm.drives rfl) _

theorem Part.Drives.makePostponed {p : Part} {m : Slot} (h : p.Drives m) : (p.makePostponed m).RestsOff := by
  unfold Part.makePostponed
  split
  · exact h.makeWithInterval _ _ _
  · exact h.1

theorem Part.Drives.planDrive {p : Part} {m : Slot} (h : p.Drives m) (due : List PlanEntry) : Answers m (p.planDrive m due) := by
  have hp := h.makePostponed
  unfold Part.planDrive
  simp only
  generalize p.makePostponed m = q at hp
  split
  · exact hp.noAnswer _ m
  · rename_i hrun
    have hq : q.Drives m := ⟨hp, by simpa [Part.running] using hrun⟩
    have hr := hq.readFor ((RecordId.profile m).pos 0)
    generalize q.readFor m _ = r at hr
    obtain ⟨_ | fs, u⟩ := r
    · exact hr.1.noAnswer _ m
    · simp only
      split
      · exact hr.drives.planSineDrive _ _
      · exact hr.drives.planBlockDrive _ _

theorem Part.Drives.readBusChannel {p : Part} {m : Slot} (h : p.Drives m) (due : List PlanEntry) :
    Answers m (p.readBusChannel m due) := by
  unfold Part.readBusChannel
  split
  · have hr := h.readFor (RecordId.config.pos 3)
    generalize p.readFor m _ = r at hr
    obtain ⟨_ | fs, u⟩ := r
    · exact hr.1.noAnswer _ m
    · exact hr.drives.answers _
  · exact h.answers _

theorem Part.Drives.findWindows {p : Part} {m : Slot} (h : p.Drives m) (due : List PlanEntry) (d : DriveWindows) (len : Nat) :
    Answers m (p.findWindows m due d len) := by
  have hr := h.readAllFor ((finderWords due).map (RecordId.profile m).pos)
  unfold Part.findWindows
  simp only
  generalize p.readAllFor m _ = r at hr
  obtain ⟨_ | ws, u⟩ := r
  · exact hr.1.noAnswer _ m
  · have hb := hr.drives.readBusChannel due
    simp only
    generalize u.readBusChannel m due = r' at hb
    obtain ⟨_ | bus, v⟩ := r'
    · exact hb.1.noAnswer _ m
    · exact hb.drives.answers _

theorem Part.RestsOff.joinRequest {p : Part} (h : p.RestsOff) (m : Slot) (sc : Schedule) (r : Request) :
    (p.joinRequest m sc r).RestsOff := by
  unfold Part.joinRequest
  split
  · exact h
  · exact Part.RestsOff.modMotor (p := p.modSampler _) h (h.2 m)

theorem Part.RestsOff.joinAtValley {p : Part} (h : p.RestsOff) (m : Slot) : (p.joinAtValley m).RestsOff := by
  have fold : ∀ (l : List Request) (sc : Schedule) (q : Part), q.RestsOff →
      (l.foldl (fun p r => p.joinRequest m sc r) q).RestsOff := by
    intro l sc
    induction l with
    | nil => exact fun _ hq => hq
    | cons r l ih => exact fun q hq => ih _ (hq.joinRequest m sc r)
  unfold Part.joinAtValley
  split
  · exact h
  · exact fold _ _ _ h

theorem Part.Drives.beginPeriod {p : Part} {m : Slot} (h : p.Drives m) (n : NewPeriod) : (p.beginPeriod m n).RestsOff := by
  have hn : ({ p with nextSched := p.nextSched + 1 } : Part).Drives m := h
  exact (Part.Drives.modMotor hn rfl).1.joinAtValley m

theorem Part.Drives.openPeriod {p : Part} {m : Slot} (h : p.Drives m) (period : Byte) : (p.openPeriod m period).RestsOff := by
  have h1 := h.valleySetpoint period
  unfold Part.openPeriod
  generalize p.valleySetpoint m period = r1 at h1
  obtain ⟨_ | outcome, p1⟩ := r1
  · exact h1.1
  have h2 := h1.drives.readAllFor (RecordId.plan m).positions
  simp only
  generalize p1.readAllFor m _ = r2 at h2
  obtain ⟨_ | ws, p2⟩ := r2
  · exact h2.1
  have h3 := h2.drives.planDrive ((planEntries ws).filter (·.due period))
  simp only
  generalize p2.planDrive m _ = r3 at h3
  obtain ⟨_ | plan, p3⟩ := r3
  · exact h3.1
  have h4 := h3.drives.findWindows ((planEntries ws).filter (·.due period)) plan.windows
    ((p3.tb.p : Int) + appliedTrim (p3.motor m).pace.trim p3.tb.p plan.figE).toNat
  simp only
  generalize p3.findWindows m _ _ _ = r4 at h4
  obtain ⟨_ | sr, p4⟩ := r4
  · exact h4.1
  · exact h4.drives.beginPeriod _

/-- R10, R23: the first valley makes its motor RUNNING before it does anything else. -/
theorem Part.RestsOff.openFirst {p : Part} (h : p.RestsOff) (m : Slot) : (p.openFirst m).RestsOff :=
  Part.Drives.openPeriod ⟨h.modMotor (Motor.restsOff_of_driven (.inl rfl)), by rw [Part.modMotor_motor_self]⟩ 0#8

theorem Part.Drives.openNext {p : Part} {m : Slot} (h : p.Drives m) : (p.openNext m).RestsOff := by
  unfold Part.openNext
  split
  · exact h.1
  · split
    · exact h.1.leaveRun .ready none (Motor.restsOff_allOff _ _)
    · exact h.openPeriod _

/-! ## Edges and pending turn-ons -/

theorem Motor.makeEdges_slot (q : Motor) (now : Tick) : (q.makeEdges now).slot = q.slot := by
  unfold Motor.makeEdges
  split <;> rfl

/-- R65: a turn-on that is pending shows that the motor's state drives its gates. -/
theorem Motor.RestsOff.carryOut {q : Motor} (h : q.RestsOff) (now : Tick) {x : Phase} {g : Switch} {pd : PendOn}
    (hp : (q.gates.gateAt x g).pend = some pd) : (q.carryOut now x g).RestsOff := by
  intro e
  have hnone := (h e x g).2
  rw [hp] at hnone
  exact absurd hnone (by simp)

end Sys2Proof.Machine
end

section
/-! The invariant of R16 along the other commands: sampling, cycle, link, motor commands, records, resets; and the step. -/

namespace Sys2Proof.Machine

/-! ## Sampling (chapter 7) and the supervisor -/

theorem Part.RestsOff.joinPlaced {p : Part} (h : p.RestsOff) (m : Slot) (entry : Fin 6) : (p.joinPlaced m entry).RestsOff := by
  unfold Part.joinPlaced
  split
  · exact h.joinRequest m _ _
  · exact h

theorem Part.RestsOff.grantHead {p : Part} (h : p.RestsOff) : p.grantHead.RestsOff := by
  unfold Part.grantHead
  split
  · exact h
  · split
    · unfold Part.freezeMotor
      split
      · exact Part.RestsOff.modMotor (p := p.modSampler _) h (h.2 _)
      · exact h
    · unfold Part.freezeBus
      split <;> exact h

theorem Part.RestsOff.missDeadline {p : Part} (h : p.RestsOff) (r : Waiter) : (p.missDeadline r).RestsOff := by
  unfold Part.missDeadline
  split
  · exact h
  · split
    · exact h
    · exact Part.RestsOff.modMotor (p := p.modSampler _) h (h.2 _)

theorem Part.RestsOff.checkCurrents {p : Part} (h : p.RestsOff) (m : Slot) (period : Byte) (r : Request) :
    (p.checkCurrents m period r).RestsOff := by
  unfold Part.checkCurrents
  split
  · have hr := h.readFor m ((RecordId.profile m).pos 8)
    generalize p.readFor m _ = o at hr
    obtain ⟨_ | fs, u⟩ := o
    · exact hr
    · simp only
      split
      · exact Part.RestsOff.trip hr _ m
      · exact hr
  · exact h

theorem Part.RestsOff.completeRequest {p : Part} (h : p.RestsOff) (m : Slot) (sc : Schedule) (r : Request) :
    (p.completeRequest m sc r).RestsOff := by
  have hm : ∀ f, (p.modMotor m fun q => q.modScheds f).RestsOff := fun f => h.modMotor (h.2 m)
  unfold Part.completeRequest Part.offerSample
  simp only
  split
  · exact ((hm _).checkCurrents m _ _).judgeSample _ _ _ _ _ _
  · exact (hm _).checkCurrents m _ _

theorem Part.RestsOff.giveCode {p : Part} (h : p.RestsOff) (m : Slot) (id : Nat) (entry : Fin 6) (code : Code) :
    (p.giveCode m id entry code).RestsOff := by
  have hm : ∀ f, (p.modMotor m fun q => q.modScheds f).RestsOff := fun f => h.modMotor (h.2 m)
  unfold Part.giveCode
  simp only
  split
  · split
    · exact (hm _).completeRequest m _ _
    · exact hm _
  · exact hm _

theorem Part.RestsOff.setUv {p : Part} (h : p.RestsOff) (below : Bool) (c : Code) : (p.setUv below c).RestsOff := by
  unfold Part.setUv
  split <;> exact h

theorem Part.RestsOff.setOv {p : Part} (h : p.RestsOff) (high : Bool) (c : Code) : (p.setOv high c).RestsOff := by
  unfold Part.setOv
  split <;> exact h

theorem Part.RestsOff.judgeBus {p : Part} (h : p.RestsOff) (c : Code) : (p.judgeBus c).RestsOff := by
  have stop : ∀ (b : Bool) (q : Part) (cause : StopCause), q.RestsOff → (if b then q.stopAll cause else q).RestsOff := by
    intro b q cause hq
    split
    · exact hq.stopAll cause
    · exact hq
  have hr := h.readConfig [5, 6]
  unfold Part.judgeBus
  generalize p.readConfig _ = o at hr
  obtain ⟨_ | ws, u⟩ := o
  · exact hr
  · exact stop _ _ _ (stop _ _ _ ((Part.RestsOff.setUv hr _ c).setOv _ c))

theorem Part.RestsOff.converted {p : Part} (h : p.RestsOff) (code : Code) : (p.converted code).RestsOff := by
  unfold Part.converted
  split
  · exact h
  · simp only
    split
    · exact Part.RestsOff.giveCode (p := p.modSampler _) h _ _ _ _
    · exact Part.RestsOff.judgeBus (p := (p.modSampler _).modSampler _) h code

theorem Part.RestsOff.busPlace {p : Part} (h : p.RestsOff) : p.busPlace.RestsOff := by
  have place : ∀ q : Part, q.RestsOff → q.placeBus.RestsOff := by
    intro q hq
    have hr := hq.readConfig [3, 4]
    unfold Part.placeBus
    generalize q.readConfig _ = o at hr
    obtain ⟨_ | ws, u⟩ := o <;> exact hr
  unfold Part.busPlace
  split
  · have hr := h.readConfig [3]
    generalize p.readConfig _ = o at hr
    obtain ⟨_ | ws, u⟩ := o
    · exact hr
    · simp only
      split
      · exact place u hr
      · exact hr
  · exact place p h
  · exact h

/-! ## The cycle (chapter 1) -/

theorem Part.RestsOff.syncTrack {p : Part} (h : p.RestsOff) : p.syncTrack.RestsOff := by
  have hr := h.readConfig [1]
  unfold Part.syncTrack
  generalize p.readConfig _ = o at hr
  obtain ⟨_ | ws, u⟩ := o
  · exact hr
  · simp only
    split
    · exact hr
    · split
      · exact hr
      · have hv := Part.RestsOff.readConfig hr [2]
        generalize u.readConfig _ = o' at hv
        obtain ⟨_ | vs, v⟩ := o'
        · exact hv
        · simp only
          split <;> exact hv

theorem Part.RestsOff.turnCycle {p : Part} (h : p.RestsOff) : p.turnCycle.RestsOff := by
  have dist : ∀ adj, (p.syncTrack.distribute adj).RestsOff := fun adj =>
    h.syncTrack.mapMotors _ fun q hq => by
      split
      · exact hq
      · exact hq
  exact dist _

theorem Part.RestsOff.scrub {p : Part} (h : p.RestsOff) : p.scrub.RestsOff := h.readWord _

theorem Part.RestsOff.cycleEnd {p : Part} (h : p.RestsOff) : p.cycleEnd.RestsOff := by
  have hf : p.flip.2.RestsOff := h
  unfold Part.cycleEnd
  split
  · generalize p.flip = r at hf
    obtain ⟨_ | _, q⟩ := r
    · exact Part.RestsOff.scrub (Part.RestsOff.turnCycle hf)
    · exact Part.RestsOff.turnCycle (Part.RestsOff.scrub hf)
  · exact h.turnCycle.scrub

/-! ## The end of a command, time, and the end of a transfer -/

theorem Part.RestsOff.joinAll {p : Part} (h : p.RestsOff) (l : List FrameBody) : (p.joinAll l).RestsOff := by
  rw [Part.joinAll_up]
  exact h

theorem Part.RestsOff.gather {p : Part} (h : p.RestsOff) : p.gather.2.RestsOff := h.mapMotors _ fun _ hq => hq

theorem Part.RestsOff.settle {p : Part} (h : p.RestsOff) : p.settle.RestsOff := h.gather.joinAll _

/-- Time changes no gate's level and no turn-on. -/
theorem GateStage.AllOff.pass {st : GateStage} (h : st.AllOff) (now : Tick) (n : Nat) : (st.pass now n).AllOff := by
  have gate : ∀ g : Gate, (g.pass now n).on = g.on ∧ (g.pass now n).pend = g.pend := by
    intro g
    unfold Gate.pass
    split <;> exact ⟨rfl, rfl⟩
  intro x s
  have hx := h x s
  simp only [GateStage.gateAt, GateStage.pass, PerPhase.get_map] at hx ⊢
  cases s with
  | low => exact ⟨(gate _).1.trans hx.1, (gate _).2.trans hx.2⟩
  | high => exact ⟨(gate _).1.trans hx.1, (gate _).2.trans hx.2⟩

theorem SlotBlock.gatesOff_pass (sl : SlotBlock) (f : Bool → Bool) :
    ({ sl with start := sl.start.map fun w => { w with taken := f w.taken } } : SlotBlock).gatesOff = sl.gatesOff := by
  simp only [SlotBlock.gatesOff]
  cases sl.start <;> rfl

theorem Part.RestsOff.pass {p : Part} (h : p.RestsOff) (n : Nat) : (p.pass n).RestsOff := by
  refine Part.RestsOff.mapMotors (p := p.modTb (·.pass n)) h _ fun q hq e => ?_
  rw [Motor.pass, SlotBlock.gatesOff_pass q.slot (· && n == 0)] at e
  exact (hq e).pass p.now n

theorem Part.pass_motor (p : Part) (n : Nat) (m : Slot) : (p.pass n).motor m = (p.motor m).pass p.now n := by
  simp only [Part.motor, Part.pass, Triple.get_map]

theorem Part.RestsOff.upTo {p : Part} (h : p.RestsOff) (d : Nat) : (p.upTo d).RestsOff := by
  unfold Part.upTo
  split
  · exact h
  · exact h.pass d

theorem Part.upTo_state (p : Part) (d : Nat) (m : Slot) : ((p.upTo d).motor m).slot.state = (p.motor m).slot.state := by
  unfold Part.upTo
  split
  · rfl
  · rw [Part.pass_motor]
    rfl

theorem Part.upTo_pend (p : Part) (d : Nat) (m : Slot) (x : Phase) (g : Switch) :
    (((p.upTo d).motor m).gates.gateAt x g).pend = ((p.motor m).gates.gateAt x g).pend := by
  unfold Part.upTo
  split
  · rfl
  · simp only [Part.pass_motor, Motor.pass, GateStage.pass, GateStage.gateAt, PerPhase.get_map]
    cases g <;> simp only [PhaseGates.get, Gate.pass] <;> split <;> rfl

/-- A timed command keeps the invariant when its work does at the event's instant. -/
theorem Part.RestsOff.takeTimed {p : Part} (h : p.RestsOff) (e : Instr) (f : Part → Part)
    (hf : ∀ d, p.delay e = some d → (p.upTo d).RestsOff → (f (p.upTo d)).RestsOff) : (p.takeTimed e f).RestsOff := by
  unfold Part.takeTimed
  split
  · exact h
  · split
    · exact h
    · rename_i d hd
      split
      · exact (hf d hd (h.upTo d)).settle
      · exact h

theorem Part.RestsOff.endTransfer {p : Part} (h : p.RestsOff) (fin : Upstream → Upstream) (act : FrameEffect)
    (ha : ∀ q : Part, q.RestsOff → (act q).2.RestsOff) : (p.endTransfer fin act).RestsOff := by
  have hf : p.flip.2.RestsOff := h
  unfold Part.endTransfer
  split
  · split
    · exact (ha p h).joinAll _
    · exact h
  · exact h
  · generalize p.flip = r at hf
    obtain ⟨_ | _, q⟩ := r
    · exact Part.RestsOff.joinAll (p := Part.modUp _ fin) ((ha q hf).joinAll _) _
    · exact (ha (q.modUp fin) hf).joinAll _

/-! ## Frames (chapter 11) -/

theorem Part.RestsOff.badFrame {p : Part} (h : p.RestsOff) : p.badFrame.RestsOff := by
  unfold Part.badFrame
  simp only
  split
  · exact Part.RestsOff.stopAll (p := p.modLink _) h .link
  · exact h

theorem Part.RestsOff.goodFrame {p : Part} (h : p.RestsOff) (act : Bool → FrameEffect)
    (ha : ∀ b (q : Part), q.RestsOff → (act b q).2.RestsOff) : (p.goodFrame act).2.RestsOff := by
  unfold Part.goodFrame
  simp only
  split
  · exact h
  · exact ha _ _ h

theorem Part.RestsOff.request {p : Part} (h : p.RestsOff) (tag code : Byte) (f : Part → (ReplyCode × List Byte) × Part)
    (hf : ∀ q : Part, q.RestsOff → (f q).2.RestsOff) : (p.request tag code f).2.RestsOff :=
  (hf (p.modLink _) h).gather

theorem Part.RestsOff.route {p : Part} (h : p.RestsOff) (stream : Byte) (l : List (Fin 8)) : (p.route stream l).2.RestsOff := by
  induction l generalizing p with
  | nil => exact h
  | cons i l ih =>
    have hr := h.readWord ((RecordId.accept i).pos 0)
    unfold Part.route
    generalize p.readWord _ = o at hr
    obtain ⟨_ | fs, u⟩ := o
    · exact ih hr
    · simp only
      split
      · exact hr
      · exact ih hr

theorem Motor.RestsOff.takeSetpoint {q : Motor} (h : q.RestsOff) (r : SetRec) : (q.takeSetpoint r).RestsOff := by
  unfold Motor.takeSetpoint
  split <;> exact h

theorem Part.RestsOff.setpoint {p : Part} (h : p.RestsOff) (stream : Byte) (header : BitVec 16) (r : SetRec) :
    (p.setpoint stream header r).RestsOff := by
  have hr := h.route stream [0, 1, 2, 3, 4, 5, 6, 7]
  unfold Part.setpoint
  generalize p.route _ _ = o at hr
  obtain ⟨_ | dest, u⟩ := o
  · exact hr
  · simp only
    split
    · exact Part.RestsOff.modMotor (p := u.modLink _) hr (Motor.RestsOff.takeSetpoint (hr.2 _) r)
    · exact hr

/-! ## Reads and motors that are not RUNNING -/

theorem Part.reportFault_motor (p : Part) (m k : Slot) : (p.reportFault m).motor k = p.motor k := by
  unfold Part.reportFault
  split <;> rfl

theorem Part.trip_motor_ne (p : Part) (e : TripEvent) {m k : Slot} (h : k ≠ m) : (p.trip e m).motor k = p.motor k := by
  unfold Part.trip
  split
  · rw [reportFault_motor, modMotor_motor_ne _ _ h, leaveRun_motor_ne _ _ _ h]
  · split
    · rw [reportFault_motor, modMotor_motor_ne _ _ h, leaveRun_motor_ne _ _ _ h]
    · rfl
  · split
    · rw [reportFault_motor, modMotor_motor_ne _ _ h]
    · rfl
  · split
    · rw [reportFault_motor, modMotor_motor_ne _ _ h]
    · rfl
  all_goals rfl

/-- R142: a table trip leaves every motor that is not RUNNING as it is. -/
theorem Part.tableTrip_motor (p : Part) (pos : Fin 82) (m : Slot) {k : Slot} (h : (p.motor k).slot.state ≠ .running) :
    (p.tableTrip pos m).motor k = p.motor k := by
  unfold Part.tableTrip
  split
  · rename_i hrun
    refine trip_motor_ne p _ fun e => h ?_
    simpa [Part.running, e] using hrun
  · rfl

/-- R157, R158: a read leaves every motor that is not RUNNING as it is. -/
theorem Part.readWord_motor (p : Part) (pos : Fin 82) {k : Slot} (h : (p.motor k).slot.state ≠ .running) :
    (p.readWord pos).2.motor k = p.motor k := by
  have trip : ∀ (q : Part) (m : Slot), q.motor k = p.motor k → (q.tableTrip pos m).motor k = p.motor k := fun q m hq =>
    (q.tableTrip_motor pos m (by rwa [hq])).trans hq
  have hu : (p.uncorrectable pos).motor k = p.motor k := by
    unfold Part.uncorrectable
    simp only
    split
    · exact trip _ _ (trip _ _ (trip _ _ rfl))
    · rfl
    · exact trip _ _ rfl
  unfold Part.readWord
  simp only
  split
  · rfl
  · split
    · exact hu
    · split <;> rfl

theorem Part.readWords_motor (l : List (Fin 82)) (p : Part) {k : Slot} (h : (p.motor k).slot.state ≠ .running) :
    (p.readWords l).motor k = p.motor k := by
  induction l generalizing p with
  | nil => rfl
  | cons pos l ih =>
    have hw := p.readWord_motor pos h
    exact (ih (p.readWord pos).2 (by rwa [hw])).trans hw

/-! ## The motor commands (chapter 2) -/

theorem SlotBlock.gatesOff_of_off_ready {sl : SlotBlock} (h : sl.state = .off ∨ sl.state = .ready) : sl.gatesOff = true := by
  rcases h with h | h <;> simp [SlotBlock.gatesOff, h]

theorem Part.RestsOff.doArm {p : Part} (h : p.RestsOff) (m : Slot) : (p.doArm m).2.RestsOff := by
  unfold Part.doArm
  split
  · rename_i hoff
    have hr := h.readWords (motorRecords m)
    have hm := p.readWords_motor (motorRecords m) (k := m) (by rw [hoff]; simp)
    unfold Part.armOff
    simp only
    generalize p.readWords (motorRecords m) = q at hr hm
    split
    · exact hr
    · split
      · exact hr
      · split
        · exact hr
        · refine hr.modMotor fun _ => ?_
          rw [hm]
          exact h.2 m (SlotBlock.gatesOff_of_off_ready (.inl hoff))
  all_goals exact h

theorem Part.RestsOff.doDisarm {p : Part} (h : p.RestsOff) (m : Slot) : (p.doDisarm m).2.RestsOff := by
  unfold Part.doDisarm
  split
  · exact h
  · exact h.modMotor fun _ => GateStage.allOff_allOff _ _
  all_goals exact h

/-- R16, R22: START from READY finds the gates off; from SAFE_STOP they keep the safe action. -/
theorem Part.RestsOff.startFrom {p : Part} (h : p.RestsOff) (m : Slot) (origin : StartOrigin)
    (hs : (p.motor m).slot.state ≠ .running) (ho : origin = .ready → (p.motor m).gates.AllOff) :
    (p.startFrom m origin).2.RestsOff := by
  have hr := h.readWords (motorRecords m)
  have hm := p.readWords_motor (motorRecords m) hs
  unfold Part.startFrom
  simp only
  generalize p.readWords (motorRecords m) = q at hr hm
  split
  · exact hr
  · split
    · exact hr
    · split
      · exact hr
      · have taken : ∀ (q : Part) (n : Nat), (q.offsetTaken n).2.motor m = q.motor m ∧
            (q.RestsOff → (q.offsetTaken n).2.RestsOff) := by
          intro q n
          unfold Part.offsetTaken
          split <;> exact ⟨rfl, id⟩
        refine Part.RestsOff.modMotor ((taken _ _).2 hr) fun e => ?_
        simp only
        rw [(taken _ _).1, hm]
        exact ho (by simpa [SlotBlock.gatesOff] using e)

theorem Part.RestsOff.doStart {p : Part} (h : p.RestsOff) (m : Slot) : (p.doStart m).2.RestsOff := by
  unfold Part.doStart
  split
  · rename_i hs
    exact h.startFrom m .ready (by simp [hs]) fun _ => h.2 m (SlotBlock.gatesOff_of_off_ready (.inr hs))
  · rename_i hs
    exact h.startFrom m .safeStop (by simp [hs]) (by simp)
  all_goals exact h

theorem Part.RestsOff.doPark {p : Part} (h : p.RestsOff) (m : Slot) : (p.doPark m).2.RestsOff := by
  unfold Part.doPark
  split
  · rename_i hs
    exact h.modMotor (Motor.restsOff_of_driven (.inl hs))
  · exact h.leaveRun .ready none (Motor.restsOff_allOff _ _)
  all_goals exact h

theorem Part.RestsOff.doHalt {p : Part} (h : p.RestsOff) (m : Slot) : (p.doHalt m).2.RestsOff := by
  unfold Part.doHalt
  split
  · exact h.safeStop .halt m
  · exact h.safeStop .halt m
  all_goals exact h

theorem Part.RestsOff.doRelease {p : Part} (h : p.RestsOff) (m : Slot) : (p.doRelease m).2.RestsOff := by
  unfold Part.doRelease
  split
  · refine Part.RestsOff.modMotor (h.modMotor (Motor.restsOff_allOff _ _)) fun _ => ?_
    rw [Part.modMotor_motor_self]
    exact GateStage.allOff_allOff _ _
  all_goals exact h

theorem Part.RestsOff.doAck {p : Part} (h : p.RestsOff) (m : Slot) : (p.doAck m).2.RestsOff := by
  unfold Part.doAck
  split
  · split
    · refine Part.RestsOff.modMotor ((h.readWords (motorRecords m)).modMotor (Motor.restsOff_allOff _ _)) fun _ => ?_
      rw [Part.modMotor_motor_self]
      exact GateStage.allOff_allOff _ _
    · exact h
  all_goals exact h

theorem Part.RestsOff.motorCmd {p : Part} (h : p.RestsOff) (n : BitVec 4) (degraded gated : Bool)
    (act : Slot → Part → ReplyCode × Part) (ha : ∀ m (q : Part), q.RestsOff → (act m q).2.RestsOff) :
    (p.motorCmd n degraded gated act).2.RestsOff := by
  unfold Part.motorCmd
  split
  · exact h
  · simp only
    split
    · exact h
    · split
      · exact h
      · exact ha _ _ h

/-! ## Records and status (chapters 10 and 11) -/

theorem Part.RestsOff.readRecord {p : Part} (h : p.RestsOff) (region : BitVec 4) (segment : BitVec 2) (index : Byte) :
    (p.readRecord region segment index).2.RestsOff := by
  unfold Part.readRecord
  split
  · exact h
  · exact h.readWords _

theorem Part.RestsOff.checkPlan {p : Part} (h : p.RestsOff) (r : RecordId) (ws : List (List Nat)) :
    (p.checkPlan r ws).2.RestsOff := by
  have mismatch : ∀ (m : Slot) (es : List PlanEntry), (p.planMismatch m es).2.RestsOff := by
    intro m es
    unfold Part.planMismatch
    split
    · have hr := h.readWord ((RecordId.profile m).pos 0)
      generalize p.readWord _ = o at hr
      obtain ⟨_ | fs, u⟩ := o <;> exact hr
    · exact h
  unfold Part.checkPlan
  split
  · split
    · exact h
    · rename_i m _
      have hm := mismatch m (planEntries ws)
      generalize p.planMismatch m _ = o at hm
      obtain ⟨_ | _, u⟩ := o <;> exact hm
  all_goals exact h

theorem Part.RestsOff.storeRecord {p : Part} (h : p.RestsOff) (r : RecordId) (mask : BitVec 16)
    (words : List (Nat × List Byte)) : (p.storeRecord r mask words).2.RestsOff := by
  unfold Part.storeRecord
  simp only
  split
  · exact h
  · split
    · exact h
    · have hc := h.checkPlan r (p.store.compose r mask words)
      generalize p.checkPlan r _ = o at hc
      obtain ⟨code, u⟩ := o
      cases code with
      | ok =>
        simp only [Part.followP]
        split <;> exact hc
      | _ => exact hc

theorem Part.RestsOff.writeRecord {p : Part} (h : p.RestsOff) (r : RecordId) (mask : BitVec 16)
    (words : List (Nat × List Byte)) : (p.writeRecord r mask words).2.RestsOff := by
  have hr := h.readWords (((List.range r.words).filter fun k => !selected mask k).map r.pos)
  unfold Part.writeRecord
  split
  · exact h.storeRecord r mask words
  · simp only
    split
    · exact hr.storeRecord r mask words
    · exact hr

theorem Part.RestsOff.writeFrame {p : Part} (h : p.RestsOff) (degraded : Bool) (f : WriteFrame) :
    (p.writeFrame degraded f).2.RestsOff := by
  unfold Part.writeFrame
  split
  · exact h
  · split
    · exact h
    · split
      · exact h
      · split
        · exact h
        · split
          · exact h
          · exact Part.RestsOff.writeRecord (p := p.modLink _) h _ _ _

theorem Part.RestsOff.clearCounts {p : Part} (h : p.RestsOff) (sect : BitVec 4) : (p.clearCounts sect).2.RestsOff := by
  have section_ : ∀ sc, (p.clearSection sc).RestsOff := by
    intro sc
    cases sc with
    | timebase => exact Part.RestsOff.mapMotors (p := p.modTb _) h _ fun _ hq => hq
    | motor m => exact h.modMotor (h.2 m)
    | sampler => exact Part.RestsOff.mapMotors (p := p.modSampler _) h _ fun _ hq => hq
    | link | store | device => exact h
  unfold Part.clearCounts
  split
  · exact h
  · exact section_ _

theorem Part.RestsOff.readStatus {p : Part} (h : p.RestsOff) (sect : BitVec 4) (page : Byte) :
    (p.readStatus sect page).2.RestsOff := by
  unfold Part.readStatus
  split <;> exact h

/-! ## Resets -/

theorem GateStage.initial_allOff : GateStage.initial.AllOff := by
  intro x s
  simp only [GateStage.initial, GateStage.gateAt, PerPhase.get_const]
  cases s <;> exact ⟨rfl, rfl⟩

theorem Motor.initial_restsOff (pinHigh : Bool) : (Motor.initial pinHigh).RestsOff := fun _ => GateStage.initial_allOff

theorem Part.RestsOff.resetBlocks {p : Part} (h : p.RestsOff) : p.resetBlocks.RestsOff := by
  have hr : p.resetP.2.RestsOff := by
    unfold Part.resetP
    split
    · have hw := h.readWord (RecordId.config.pos 0)
      generalize p.readWord _ = o at hw
      obtain ⟨_ | fs, u⟩ := o <;> exact hw
    · exact h
  exact hr

theorem Part.RestsOff.doResetPart {p : Part} (h : p.RestsOff) (degraded : Bool) : (p.doResetPart degraded).2.RestsOff := by
  unfold Part.doResetPart
  split
  · exact h
  · refine Part.RestsOff.resetBlocks (Part.RestsOff.mapMotors h Motor.resetPart fun q _ _ => ?_)
    unfold Motor.resetPart
    simp only
    split <;> exact GateStage.initial_allOff

theorem Part.enableReset_restsOff (p : Part) (pins : Triple Bool) : (p.enableReset pins).RestsOff := by
  have hm : ({ p with en := true, motors := pins.map Motor.enableReset } : Part).RestsOff := by
    refine ⟨rfl, fun m => ?_⟩
    simp only [Part.motor, Triple.get_map]
    exact Motor.initial_restsOff _
  exact hm.resetBlocks

/-! ## The step -/

/-- The work of a timed command, at its event's instant. -/
theorem Part.RestsOff.timedWork {p : Part} (h : p.RestsOff) {c : Instr} {f : Part → Part} (hc : c.timedWork = some f) (d : Nat)
    (hd : p.delay c = some d) : (f (p.upTo d)).RestsOff := by
  have hu := h.upTo d
  have drives : ∀ m, (p.motor m).slot.state = .running → (p.upTo d).Drives m := fun m hm => ⟨hu, by rwa [p.upTo_state]⟩
  have comm : ∀ (m : Slot) (ramp : Bool), p.commDelay m ramp = some d → (p.upTo d).Drives m := by
    intro m ramp hr
    unfold Part.commDelay at hr
    split at hr
    · exact drives m ‹_›
    · cases hr
  cases c <;> cases hc
  case masterCycleEnd => exact hu.cycleEnd
  case firstValley m => exact hu.openFirst m
  case valley m =>
    simp only [Part.delay, Part.valleyDelay] at hd
    split at hd
    · exact (drives m ‹_›).openNext
    · cases hd
  case edge m =>
    simp only [Part.delay, Part.edgeDelay] at hd
    split at hd
    · exact ((drives m ‹_›).modMotor (Motor.makeEdges_slot _ _)).1
    · cases hd
  case pendingTurnOn m x g =>
    simp only [Part.delay, Part.pendDelay] at hd
    split at hd
    · cases hd
    · rename_i hp
      simp only [Bool.or_eq_true, not_or, Option.isNone_iff_eq_none] at hp
      obtain ⟨pd, hpd⟩ := Option.ne_none_iff_exists'.1 hp.1
      exact hu.modMotor ((hu.2 m).carryOut _ ((p.upTo_pend d m x g).trans hpd))
  case rampCommutation m => exact (comm m true hd).rampDue
  case detectedCommutation m => exact (comm m false hd).detectedDue
  case searchTimeout m =>
    simp only [Part.delay, Part.timeoutDelay] at hd
    split at hd
    · exact (drives m ‹_›).timeoutDue
    · cases hd
  case waitingListJoin m entry => exact hu.joinPlaced m entry
  case holdEligible => exact hu
  case freeze => exact hu.grantHead
  case deadline r => exact hu.missDeadline r
  case conversionComplete code => exact hu.converted code
  case busRequestPlace => exact hu.busPlace

/-- The effect of a frame. -/
theorem Part.RestsOff.frameWork {p : Part} (h : p.RestsOff) {c : Instr} {fin : Upstream → Upstream} {act : FrameEffect}
    (hc : c.frameWork = some (fin, act)) : (act p).2.RestsOff := by
  have request : ∀ (tag code : Byte) (f : Bool → Part → (ReplyCode × List Byte) × Part),
      (∀ b (q : Part), q.RestsOff → (f b q).2.RestsOff) →
      (p.goodFrame fun b p => p.request tag code (f b)).2.RestsOff := fun tag code f hf =>
    h.goodFrame _ fun b q hq => hq.request tag code _ (hf b)
  cases c <;> cases hc
  case idleFrame => exact h.goodFrame _ fun _ _ hq => hq
  case setpoint => exact h.goodFrame _ fun _ _ hq => (hq.setpoint _ _ _).gather
  case badFrame why => exact (Part.RestsOff.badFrame (p := p.modLink _) h).gather
  case abortedTransfer => exact (Part.RestsOff.badFrame (p := p.modLink _) h).gather
  case readRecord => exact request _ _ _ fun _ _ hq => hq.readRecord _ _ _
  case writeRecord => exact request _ _ _ fun b _ hq => hq.writeFrame b _
  case arm => exact request _ _ _ fun b _ hq => hq.motorCmd _ b true _ fun m _ => (·.doArm m)
  case disarm => exact request _ _ _ fun b _ hq => hq.motorCmd _ b false _ fun m _ => (·.doDisarm m)
  case start => exact request _ _ _ fun b _ hq => hq.motorCmd _ b true _ fun m _ => (·.doStart m)
  case park => exact request _ _ _ fun b _ hq => hq.motorCmd _ b false _ fun m _ => (·.doPark m)
  case halt => exact request _ _ _ fun b _ hq => hq.motorCmd _ b false _ fun m _ => (·.doHalt m)
  case release => exact request _ _ _ fun b _ hq => hq.motorCmd _ b false _ fun m _ => (·.doRelease m)
  case ackFault => exact request _ _ _ fun b _ hq => hq.motorCmd _ b false _ fun m _ => (·.doAck m)
  case readStatus => exact request _ _ _ fun _ _ hq => hq.readStatus _ _
  case clearCounts => exact request _ _ _ fun _ _ hq => hq.clearCounts _
  case resetPart => exact request _ _ _ fun b _ hq => hq.doResetPart b
  case badRequest => exact request _ _ _ fun _ _ hq => hq

theorem Part.RestsOff.heldOff {p : Part} (h : p.RestsOff) : p.HeldOff where
  gates m hm := h.2 m (hm.resolve_left (by simp [h.1]))
  transfer he := absurd h.1 (by simp [he])

theorem Part.HeldOff.restsOff {p : Part} (h : p.HeldOff) (he : p.en = true) : p.RestsOff := ⟨he, fun m hm => h.gates m (.inr hm)⟩

theorem Transfer.cut_quiet (t : Transfer) : t.cut = .absent ∨ t.cut = .ignored := by cases t <;> simp [Transfer.cut]

/-- R32: at the falling edge of EN every gate goes off, and a transfer in progress is no longer taken. -/
theorem Part.enFall_heldOff (p : Part) : p.enFall.HeldOff where
  gates m _ := by
    intro x s
    simp only [Part.enFall, Part.motor, Triple.get_map, Motor.enFall, GateStage.enFall, GateStage.gateAt, PerPhase.get_const]
    cases s <;> exact ⟨rfl, rfl⟩
  transfer _ := p.up.transfer.cut_quiet

theorem Part.powerOn_heldOff (p : Part) (e : Bool) (pins : Triple Bool) : (p.powerOn e pins).HeldOff where
  gates m _ := by
    simp only [Part.powerOn, Part.motor, Part.modUp, Part.poweredOn, Triple.get_map]
    exact GateStage.initial_allOff
  transfer _ := p.up.transfer.cut_quiet

/-- R16: a command while EN is high. -/
theorem Part.RestsOff.after {p : Part} (h : p.RestsOff) (c : Instr) : (p.after c).HeldOff := by
  rcases instr_kinds c with
    ⟨f, hf⟩ | ⟨fin, act, hf⟩ | ⟨e, pins, rfl⟩ | rfl | ⟨pins, rfl⟩ | rfl | ⟨m, rfl⟩ | ⟨m, rfl⟩ | rfl
  · rw [p.after_of_timedWork hf]
    exact (h.takeTimed c f fun d hd _ => h.timedWork hf d hd).heldOff
  · rw [p.after_of_frameWork hf]
    exact (h.endTransfer fin act fun q hq => hq.frameWork hf).heldOff
  · exact p.powerOn_heldOff e pins
  · simp only [Part.after, exec, execEnFall, h.1, if_true]
    exact p.enFall_heldOff
  · exact (p.enableReset_restsOff pins).heldOff
  · simp only [Part.after, exec, execSyncEdge, h.1, if_true]
    exact Part.RestsOff.heldOff (p := p.modTb _) h
  · simp only [Part.after, exec, execOcPinFall]
    split
    · exact (Part.RestsOff.trip (h.modMotor (h.2 m)) _ m).settle.heldOff
    · exact h.heldOff
  · simp only [Part.after, exec, execOcPinRise, h.1, if_true]
    exact (h.modMotor (h.2 m)).heldOff
  · have hb : p.beginTransfer.RestsOff := by
      have hu : ∀ q : Part, q.RestsOff → q.upStream.2.RestsOff := by
        intro q hq
        have hr := hq.readConfig [7]
        unfold Part.upStream
        generalize q.readConfig _ = o at hr
        obtain ⟨_ | ws, u⟩ := o <;> exact hr
      unfold Part.beginTransfer
      simp only
      split
      · exact h
      · exact hu (p.modUp _) h
    simp only [Part.after, exec, execTransferStart, h.1, if_true]
    split
    · exact hb.settle.heldOff
    · exact h.heldOff
    · exact h.heldOff

/-- R16, R32: no command turns a gate on that its motor's state, or EN, holds off. -/
theorem Part.HeldOff.after {p : Part} (h : p.HeldOff) (c : Instr) : (p.after c).HeldOff := by
  cases he : p.en with
  | true => exact (h.restsOff he).after c
  | false =>
    by_cases h1 : ∃ e pins, c = .powerOn e pins
    · obtain ⟨e, pins, rfl⟩ := h1
      exact p.powerOn_heldOff e pins
    by_cases h2 : ∃ pins, c = .enableReset pins
    · obtain ⟨pins, rfl⟩ := h2
      exact (p.enableReset_restsOff pins).heldOff
    · obtain ⟨tr, ht, hm⟩ := p.after_enLow c he (h.transfer he) (fun e pins k => h1 ⟨e, pins, k⟩)
        fun pins k => h2 ⟨pins, k⟩
      rw [ht]
      exact ⟨h.gates, fun _ => hm⟩

/-- Settles O8: every change of a gate's level is made for a motor that drives its gates, and a motor that enters a state of
R16 that does not has them turned off in the same step. -/
theorem undrivenGatesStayOff : Obligations.UndrivenGatesStayOff := by
  intro s t h hstep
  unfold step at hstep
  split at hstep
  · unfold idle at hstep
    split at hstep
    · cases hstep
      exact h
    · rename_i he
      have hr := h.restsOff (by simpa using he)
      split at hstep
      · rw [exec_eq_after] at hstep
        cases hstep
        exact (Part.RestsOff.heldOff (p := { s.part with free := s.part.free + 1 }) hr).after _
      · cases hstep
        exact (hr.pass 1).heldOff
  · rw [exec_eq_after] at hstep
    cases hstep
    exact h.after _

end Sys2Proof.Machine
end

section
/-! What stops, trips and reads of the store leave unchanged. -/

namespace Sys2Proof.Machine

/-- Between p and t only motors, the waiting list, the upstream side, the store and the notices raised differ. -/
def Part.OnMotors (p t : Part) : Prop :=
  ∃ ms w up st ob, t = { p with
    motors := ms, sampler := { p.sampler with waiting := w }, up := up, store := st, outbox := ob }

theorem Part.OnMotors.refl (p : Part) : p.OnMotors p := ⟨_, _, _, _, _, rfl⟩

theorem Part.OnMotors.trans {p q t : Part} (h : p.OnMotors q) (k : q.OnMotors t) : p.OnMotors t := by
  obtain ⟨_, _, _, _, _, rfl⟩ := h
  obtain ⟨_, _, _, _, _, rfl⟩ := k
  exact ⟨_, _, _, _, _, rfl⟩

theorem Part.OnMotors.leaveRun (p : Part) (m : Slot) (st : MotorState) (c : Option StopCause) : p.OnMotors (p.leaveRun m st c) :=
  ⟨_, _, _, _, _, rfl⟩

theorem Part.OnMotors.modMotor (p : Part) (m : Slot) (f : Motor → Motor) : p.OnMotors (p.modMotor m f) := ⟨_, _, _, _, _, rfl⟩

theorem Part.OnMotors.notice (p : Part) (n : Notice) : p.OnMotors (p.notice n) := ⟨_, _, _, _, _, rfl⟩

theorem Part.OnMotors.reportFault (p : Part) (m : Slot) : p.OnMotors (p.reportFault m) := by
  unfold Part.reportFault
  split <;> exact ⟨_, _, _, _, _, rfl⟩

theorem Part.OnMotors.eachMotor (p : Part) {f : Slot → Part → Part} (hf : ∀ m (q : Part), q.OnMotors (f m q)) :
    p.OnMotors (p.eachMotor f) := ((hf _ _).trans (hf _ _)).trans (hf _ _)

theorem Part.OnMotors.safeStop (p : Part) (c : StopCause) (m : Slot) : p.OnMotors (p.safeStop c m) := by
  unfold Part.safeStop
  split
  · exact ((leaveRun p m _ _).trans (modMotor _ m _)).trans (notice _ _)
  · exact ((leaveRun p m _ _).trans (modMotor _ m _)).trans (notice _ _)
  all_goals exact refl p

theorem Part.OnMotors.stopAll (p : Part) (c : StopCause) : p.OnMotors (p.stopAll c) := eachMotor p fun m q => safeStop q c m

theorem Part.OnMotors.trip (p : Part) (e : TripEvent) (m : Slot) : p.OnMotors (p.trip e m) := by
  have first := ((leaveRun p m .tripped none).trans (modMotor _ m (·.tripped e p.now))).trans (reportFault _ m)
  unfold Part.trip
  split
  · exact first
  · split
    · exact first
    · exact refl p
  · split
    · exact (modMotor p m _).trans (reportFault _ m)
    · exact refl p
  · split
    · exact (modMotor p m _).trans (reportFault _ m)
    · exact refl p
  all_goals exact refl p

theorem Part.OnMotors.tableTrip (p : Part) (pos : Fin 82) (m : Slot) : p.OnMotors (p.tableTrip pos m) := by
  unfold Part.tableTrip
  split
  · exact trip p _ m
  · exact refl p

theorem Part.OnMotors.uncorrectable (p : Part) (pos : Fin 82) : p.OnMotors (p.uncorrectable pos) := by
  have hn : p.OnMotors ((p.modStore (·.invalidate pos)).notice (.tableInvalid (regionIndex pos).1 (regionIndex pos).2)) :=
    ⟨_, _, _, _, _, rfl⟩
  unfold Part.uncorrectable
  simp only
  split
  · exact hn.trans (eachMotor _ fun m q => tableTrip q pos m)
  · exact hn
  · exact hn.trans (tableTrip _ pos _)

theorem Part.OnMotors.readWord (p : Part) (pos : Fin 82) : p.OnMotors (p.readWord pos).2 := by
  unfold Part.readWord
  simp only
  split
  · exact refl p
  · split
    · exact uncorrectable p pos
    · split
      · exact ⟨_, _, _, _, _, rfl⟩
      · exact refl p
      · exact refl p

theorem Part.OnMotors.readWords (p : Part) (l : List (Fin 82)) : p.OnMotors (p.readWords l) := by
  induction l generalizing p with
  | nil => exact refl p
  | cons pos l ih => exact (readWord p pos).trans (ih _)

/-- R15: the read of P at a reset. -/
theorem Part.OnMotors.resetP (p : Part) : p.OnMotors p.resetP.2 := by
  have hr := readWord p (RecordId.config.pos 0)
  unfold Part.resetP
  split
  · generalize p.readWord _ = o at hr
    obtain ⟨_ | fs, u⟩ := o <;> exact hr
  · exact refl p

theorem Part.OnMotors.cause {p t : Part} (h : p.OnMotors t) : t.cause = p.cause := by
  obtain ⟨_, _, _, _, _, rfl⟩ := h
  rfl

end Sys2Proof.Machine
end

section
/-! The end of a transfer, whatever frames come of it (R130, R131, R136); and a management request as its own effect, its
frames and its reply (R166, R167). -/

namespace Sys2Proof.Machine

/-! ## The end of a transfer -/

/-- R131, R136: the frames join in this order, and the end of a transfer in progress does `fin` in any place among them. -/
def Upstream.EndsAmong (u v : Upstream) (fin : Upstream → Upstream) (frames : List FrameBody) : Prop :=
  (u.transfer = .absent → v = frames.foldl Upstream.join u) ∧
  (u.transfer ≠ .absent → ∃ n, v = (frames.drop n).foldl Upstream.join (fin ((frames.take n).foldl Upstream.join u)))

theorem Upstream.joinedBy_iff (u v : Upstream) (frames : List FrameBody) :
    u.JoinedBy v frames ↔ u.EndsAmong v Upstream.consume frames := Iff.rfl

theorem Part.transferEnded_absent {p : Part} (h : p.up.transfer = .absent) : p.transferEnded = p := by
  simp only [Part.transferEnded, h]

theorem Part.transferEnded_active {p : Part} (ha : p.up.transfer ≠ .absent) (hi : p.up.transfer ≠ .ignored) :
    p.transferEnded = { p with up := p.up.consume, free := p.free + 1 } := by
  unfold Part.transferEnded
  split
  · rfl
  · exact absurd ‹_› ha
  · exact absurd ‹_› hi

/-- The end of a transfer touches the upstream side and the counter of free choices alone. -/
theorem Part.transferEnded_eq (p : Part) :
    p.transferEnded = { p with up := p.transferEnded.up, free := p.transferEnded.free } := by
  unfold Part.transferEnded
  split <;> rfl

/-- R131, R136: a frame whose effect leaves the upstream side to its frames, at the end of its transfer: the effect in the
part before the end or after it, and the frames joined with the end in some place among them. -/
theorem Part.endTransfer_among (p : Part) (fin : Upstream → Upstream) (act : FrameEffect) (he : p.en = true)
    (ht : p.up.transfer ≠ .ignored) (hup : ∀ u, (act { p with up := u, free := p.transferEnded.free }).2.up = u) :
    ∃ u v, (u = p.up ∨ p.up.transfer ≠ .absent ∧ u = fin p.up) ∧
      p.endTransfer fin act = { (act { p with up := u, free := p.transferEnded.free }).2 with up := v } ∧
      p.up.EndsAmong v fin (act { p with up := u, free := p.transferEnded.free }).1 := by
  by_cases ha : p.up.transfer = .absent
  · have hend : p.endTransfer fin act = (act p).2.joinAll (act p).1 := by simp only [Part.endTransfer, ha, he, if_true]
    rw [Part.transferEnded_absent ha] at hup ⊢
    refine ⟨p.up, (act p).1.foldl Upstream.join p.up, .inl rfl, ?_, fun _ => rfl, fun h => absurd ha h⟩
    rw [hend, Part.joinAll_up, Part.modUp, hup p.up]
  · have hfree : p.transferEnded.free = p.free + 1 := by rw [Part.transferEnded_active ha ht]
    rw [hfree] at hup ⊢
    rcases p.endTransfer_active fin act ha ht with h | ⟨n, -, h⟩
    · refine ⟨fin p.up, (act { p with up := fin p.up, free := p.free + 1 }).1.foldl Upstream.join (fin p.up), .inr ⟨ha, rfl⟩, ?_,
        fun k => absurd k ha, fun _ => ⟨0, rfl⟩⟩
      rw [h, Part.joinAll_up, Part.modUp]
      exact congrArg (fun u => { (act { p with up := fin p.up, free := p.free + 1 }).2 with
        up := (act { p with up := fin p.up, free := p.free + 1 }).1.foldl Upstream.join u }) (hup (fin p.up))
    · refine ⟨p.up, _, .inl rfl, ?_, fun k => absurd k ha, fun _ => ⟨n, rfl⟩⟩
      rw [h]
      simp only [Part.joinAll_up, Part.modUp, hup p.up]

/-- What holds after a frame's effect, however the upstream side changes, holds at the end of its transfer. -/
theorem Part.endTransfer_induct {P : Part → Prop} (p : Part) (fin : Upstream → Upstream) (act : FrameEffect) (he : p.en = true)
    (ht : p.up.transfer ≠ .ignored) (hP : ∀ (q : Part) (f : Upstream → Upstream), P q → P (q.modUp f))
    (ha : ∀ u n, P (act { p with up := u, free := n }).2) : P (p.endTransfer fin act) := by
  have join : ∀ (q : Part) (l : List FrameBody), P q → P (q.joinAll l) := fun q l hq => by
    rw [Part.joinAll_up]
    exact hP _ _ hq
  by_cases hx : p.up.transfer = .absent
  · simp only [Part.endTransfer, hx, he, if_true]
    exact join _ _ (ha p.up p.free)
  · rcases p.endTransfer_active fin act hx ht with h | ⟨n, -, h⟩
    · rw [h]
      exact join _ _ (ha (fin p.up) (p.free + 1))
    · rw [h]
      exact join _ _ (hP _ _ (join _ _ (ha p.up (p.free + 1))))

/-! ## Frames that find room -/

theorem Upstream.join_of_room {u : Upstream} {b : FrameBody} (hb : b.isSample = false) (h : u.queue.length < 8) :
    u.join b = u.append b := by
  rw [Upstream.join_room u b h]
  cases b with
  | sample f => exact absurd hb (by simp [FrameBody.isSample])
  | reply r => rfl
  | notice n => rfl

@[simp] theorem Upstream.append_queue (u : Upstream) (b : FrameBody) : (u.append b).queue = u.queue ++ [⟨u.nextId, b⟩] := rfl

@[simp] theorem Upstream.append_transfer (u : Upstream) (b : FrameBody) : (u.append b).transfer = u.transfer := rfl

/-- R130: frames that all find room join at the tail, one after another. -/
theorem Upstream.foldl_join_room (l : List FrameBody) (u : Upstream) (hl : ∀ b ∈ l, b.isSample = false)
    (h : u.queue.length + l.length ≤ 8) : l.foldl Upstream.join u = l.foldl Upstream.append u := by
  induction l generalizing u with
  | nil => rfl
  | cons b l ih =>
    simp only [List.length_cons] at h
    rw [List.foldl_cons, List.foldl_cons, Upstream.join_of_room (hl b List.mem_cons_self) (by omega)]
    exact ih _ (fun x hx => hl x (List.mem_cons_of_mem _ hx)) (by simp; omega)

theorem Upstream.foldl_append_bodies (l : List FrameBody) (u : Upstream) :
    (l.foldl Upstream.append u).queue.map (·.body) = u.queue.map (·.body) ++ l := by
  induction l generalizing u with
  | nil => simp
  | cons b l ih => simp [ih]

/-- A frame at the tail keeps the numbering. -/
theorem Upstream.Numbered.append {u : Upstream} (h : u.Numbered) (b : FrameBody) : (u.append b).Numbered where
  below f hf := by
    rcases List.mem_append.1 hf with hf | hf
    · exact Nat.lt_succ_of_lt (h.below f hf)
    · obtain rfl := List.mem_singleton.1 hf
      exact Nat.lt_succ_self _
  distinct := by
    have hne : u.nextId ∉ u.queue.map (·.id) := fun hm => by
      obtain ⟨f, hf, he⟩ := List.mem_map.1 hm
      exact absurd (h.below f hf) (by omega)
    simpa [List.nodup_append] using ⟨h.distinct, fun f hf e => hne (List.mem_map.2 ⟨f, hf, e⟩)⟩
  carried id hid := Nat.lt_succ_of_lt (h.carried id hid)

/-- R136: a frame at the tail and the consumption of another meet in either order. -/
theorem Upstream.consume_append_body (u : Upstream) (b : FrameBody) (h : u.Numbered) :
    (u.append b).consume = u.consume.append b := by
  cases ht : u.transfer with
  | absent => simp [Upstream.consume, Upstream.append, ht]
  | ignored => simp [Upstream.consume, Upstream.append, ht]
  | active c bytes loss changed =>
    cases c with
    | idle => simp [Upstream.consume, Upstream.append, ht]
    | fault m =>
      simp only [Upstream.consume, Upstream.append, ht]
      split <;> rfl
    | queued id =>
      have hid : id < u.nextId := h.carried id (by simp [ht, Transfer.queuedId])
      have hne : (u.nextId == id) = false := by simp; omega
      simp only [Upstream.consume, Upstream.append, ht, List.find?_append]
      cases hf : u.queue.find? (·.id == id) with
      | none => simp [hne]
      | some f =>
        simp only [Option.some_or, Upstream.countSent]
        cases f.body <;> simp [List.filter_append, hne, bne]

theorem Upstream.consume_foldl_append (l : List FrameBody) (u : Upstream) (h : u.Numbered) :
    (l.foldl Upstream.append u).consume = l.foldl Upstream.append u.consume := by
  induction l generalizing u with
  | nil => rfl
  | cons b l ih => rw [List.foldl_cons, List.foldl_cons, ih _ (h.append b), u.consume_append_body b h]

/-- R130, R131: where all the frames find room, the place of the transfer's end among them makes no difference. -/
theorem Upstream.EndsAmong.room {u v : Upstream} {fin : Upstream → Upstream} {frames : List FrameBody}
    (h : u.EndsAmong v fin frames) (hfin : ∀ l : List FrameBody, fin (l.foldl Upstream.append u) = l.foldl Upstream.append (fin u))
    (hlen : (fin u).queue.length ≤ u.queue.length) (hf : ∀ b ∈ frames, b.isSample = false)
    (hr : u.queue.length + frames.length ≤ 8) :
    v = frames.foldl Upstream.append (if u.transfer = .absent then u else fin u) := by
  have grown : ∀ (l : List FrameBody) (w : Upstream), (l.foldl Upstream.append w).queue.length = w.queue.length + l.length :=
    fun l w => by simpa using congrArg List.length (Upstream.foldl_append_bodies l w)
  by_cases ha : u.transfer = .absent
  · rw [h.1 ha, if_pos ha, Upstream.foldl_join_room frames u hf hr]
  · obtain ⟨n, rfl⟩ := h.2 ha
    have hsum : (frames.take n).length + (frames.drop n).length = frames.length := by
      rw [← List.length_append, List.take_append_drop]
    rw [if_neg ha, Upstream.foldl_join_room _ _ (fun b hb => hf b (List.mem_of_mem_take hb)) (by omega), hfin,
      Upstream.foldl_join_room _ _ (fun b hb => hf b (List.mem_of_mem_drop hb)) (by rw [grown]; omega),
      ← List.foldl_append, List.take_append_drop]

theorem Part.transferEnded_up {p : Part} (ht : p.up.transfer ≠ .ignored) :
    p.transferEnded.up = if p.up.transfer = .absent then p.up else p.up.consume := by
  by_cases ha : p.up.transfer = .absent
  · rw [if_pos ha, Part.transferEnded_absent ha]
  · rw [if_neg ha, Part.transferEnded_active ha ht]

/-- The same for a transfer whose upstream frame is consumed. -/
theorem Part.joinedBy_room {p : Part} {v : Upstream} {frames : List FrameBody} (h : p.up.JoinedBy v frames)
    (ht : p.up.transfer ≠ .ignored) (hn : p.up.Numbered) (hf : ∀ b ∈ frames, b.isSample = false)
    (hr : p.up.queue.length + frames.length ≤ 8) : v = frames.foldl Upstream.append p.transferEnded.up := by
  rw [Part.transferEnded_up ht]
  exact ((Upstream.joinedBy_iff _ _ _).1 h).room (fun l => Upstream.consume_foldl_append l _ hn)
    (Upstream.consume_queue_length _) hf hr

/-! ## Management requests -/

/-- R164 to R167: a management request that is acted on, and whose own effect leaves the upstream side to its frames. -/
theorem Part.takeRequest_joined (p : Part) (tag code : Byte) (f : Bool → Part → (ReplyCode × List Byte) × Part)
    (h : p.Serving 0)
    (hup : ∀ u, (f (actsDegraded p.link.errors) (p.asServed u p.transferEnded.free)).2.up = u) :
    ∃ u v, (u = p.up ∨ u = p.transferEnded.up) ∧
      let r := f (actsDegraded p.link.errors) (p.asServed u p.transferEnded.free)
      p.takeRequest tag code f = { r.2.gather.2 with up := v } ∧
        p.up.JoinedBy v (r.2.gather.1 ++ [.reply ⟨tag, code, r.1.1, r.1.2⟩]) := by
  have hgood : ∀ u n, (({ p with up := u, free := n } : Part).goodFrame fun d q => q.request tag code (f d)) =
      (let r := f (actsDegraded p.link.errors) (p.asServed u n)
       (r.2.gather.1 ++ [.reply ⟨tag, code, r.1.1, r.1.2⟩], r.2.gather.2)) := fun u n => by
    rw [Part.goodFrame_acted { p with up := u, free := n } _ h.notLost]
    rfl
  obtain ⟨u, v, hu, ht, hj⟩ := p.endTransfer_among Upstream.consume
    (fun q => q.goodFrame fun d q => q.request tag code (f d)) h.en h.taken fun u => by
      rw [hgood]
      exact hup u
  rw [hgood] at ht hj
  refine ⟨u, v, ?_, ht, hj⟩
  rcases hu with rfl | ⟨ha, rfl⟩
  · exact .inl rfl
  · exact .inr (by rw [Part.transferEnded_active ha h.taken])

theorem Part.Serving.zero {p : Part} {room : Nat} (h : p.Serving room) : p.Serving 0 :=
  { h with room := by have := h.room; omega }

/-- R166, R167: a request whose effect, but for the link's counts, is on the motors and the store alone, raises no notice and
completes no schedule. Its reply may speak of the upstream side, before the transfer's end or after it. -/
theorem Part.takeRequest_answer {p : Part} (tag code : Byte) (f : Bool → Part → (ReplyCode × List Byte) × Part)
    (r : Upstream → ReplyCode × List Byte) (motors : Triple Motor) (st : Store) (h : p.Serving 1)
    (hf : ∀ u, f (actsDegraded p.link.errors) (p.asServed u p.transferEnded.free) =
      (r u, { p.asServed u p.transferEnded.free with motors := motors, store := st }))
    (hq : ∀ m, (motors.get m).scheds = (p.motor m).scheds) :
    ∃ u, (u = p.up ∨ u = p.transferEnded.up) ∧
      p.takeRequest tag code f = { p.replied ⟨tag, code, (r u).1, (r u).2⟩ with motors := motors, store := st } := by
  obtain ⟨u, v, hu, ht, hj⟩ := p.takeRequest_joined tag code f h.zero fun u => by rw [hf]; rfl
  have hquiet : ({ p.asServed u p.transferEnded.free with motors := motors, store := st } : Part).Quiet :=
    ⟨h.quiet.outbox, fun m => by
      have hm := h.quiet.handed m
      rwa [← hq m] at hm⟩
  simp only [hf, Part.gather_quiet _ hquiet, List.nil_append] at ht hj
  refine ⟨u, hu, ?_⟩
  have hv := Part.joinedBy_room hj h.taken h.numbered (by simp [FrameBody.isSample]) h.room
  rw [ht, hv, Part.replied, p.transferEnded_eq]
  rfl

/-- The same with a reply that does not speak of the upstream side. -/
theorem Part.takeRequest_effect {p : Part} (tag code : Byte) (f : Bool → Part → (ReplyCode × List Byte) × Part)
    (r : ReplyCode × List Byte) (motors : Triple Motor) (st : Store) (h : p.Serving 1)
    (hf : ∀ u, f (actsDegraded p.link.errors) (p.asServed u p.transferEnded.free) =
      (r, { p.asServed u p.transferEnded.free with motors := motors, store := st }))
    (hq : ∀ m, (motors.get m).scheds = (p.motor m).scheds) :
    p.takeRequest tag code f = { p.replied ⟨tag, code, r.1, r.2⟩ with motors := motors, store := st } := by
  obtain ⟨u, -, ht⟩ := Part.takeRequest_answer tag code f (fun _ => r) motors st h hf hq
  exact ht

theorem Part.replied_same (p : Part) (r : Reply) : { p.replied r with motors := p.motors, store := p.store } = p.replied r := by
  rw [Part.replied, p.transferEnded_eq]

/-- The same with no effect but the link's counts. -/
theorem Part.takeRequest_replied {p : Part} (tag code : Byte) (f : Bool → Part → (ReplyCode × List Byte) × Part)
    (r : ReplyCode × List Byte) (h : p.Serving 1)
    (hf : ∀ u, f (actsDegraded p.link.errors) (p.asServed u p.transferEnded.free) =
      (r, p.asServed u p.transferEnded.free)) :
    p.takeRequest tag code f = p.replied ⟨tag, code, r.1, r.2⟩ := by
  rw [Part.takeRequest_effect tag code f r p.motors p.store h hf fun _ => rfl, Part.replied_same]

end Sys2Proof.Machine
end

section
/-! Requests that are refused, or that touch one slot alone: R19, R21, R30, R35, R164, R167, R170. -/

namespace Sys2Proof.Machine

/-! ## The checks common to the motor commands (R19) -/

@[simp] theorem slotOfNat_toNat (m : Slot) : slotOfNat m.toNat = some m := by cases m <;> rfl

theorem slotOfNat_of_ge {n : Nat} (h : 3 ≤ n) : slotOfNat n = none := by
  match n, h with
  | k + 3, _ => rfl

theorem actsDegraded_of_gt {n : Nat} (h : 128 < n) : actsDegraded n = true := by
  have : n ≠ 128 := by omega
  simp [actsDegraded, this, h]

theorem actsDegraded_of_lt {n : Nat} (h : n < 128) : actsDegraded n = false := by
  have : n ≠ 128 := by omega
  simp only [actsDegraded, this, if_false, decide_eq_false_iff_not]
  omega

theorem Part.motorCmd_noSlot (p : Part) {n : BitVec 4} (degraded gated : Bool) (act : Slot → Part → ReplyCode × Part)
    (h : 3 ≤ n.toNat) : p.motorCmd n degraded gated act = ((.badRequest, []), p) := by
  simp only [Part.motorCmd, slotOfNat_of_ge h]

/-- A command for a slot that is not refused by R19: its reply carries the state after it. -/
theorem Part.motorCmd_acts (p : Part) {n : BitVec 4} {m : Slot} {degraded gated : Bool}
    (act : Slot → Part → ReplyCode × Part) (hn : n.toNat = m.toNat) (hg : (degraded && gated) = false)
    (hl : (p.motor m).slot.state ≠ .lockedOut) :
    p.motorCmd n degraded gated act = (((act m p).1, [byte ((act m p).2.motor m).slot.state.num]), (act m p).2) := by
  simp only [Part.motorCmd, hn, slotOfNat_toNat, hg, hl, if_false, Bool.false_eq_true]

theorem Part.motorCmd_degraded (p : Part) {n : BitVec 4} {m : Slot} {degraded gated : Bool}
    (act : Slot → Part → ReplyCode × Part) (hn : n.toNat = m.toNat) (hg : (degraded && gated) = true) :
    p.motorCmd n degraded gated act = ((.degraded, [byte (p.motor m).slot.state.num]), p) := by
  simp only [Part.motorCmd, hn, slotOfNat_toNat, hg, if_true]

theorem Part.motorCmd_locked (p : Part) {n : BitVec 4} {m : Slot} {degraded gated : Bool}
    (act : Slot → Part → ReplyCode × Part) (hn : n.toNat = m.toNat) (hg : (degraded && gated) = false)
    (hl : (p.motor m).slot.state = .lockedOut) :
    p.motorCmd n degraded gated act = ((.locked, [byte (p.motor m).slot.state.num]), p) := by
  simp only [Part.motorCmd, hn, slotOfNat_toNat, hg, hl, if_true, if_false, Bool.false_eq_true]

/-- A motor command is its action under the checks of R19; in a state that its table row refuses the action does nothing. -/
theorem after_motorCmd {c : Instr} {tag : Byte} {n : BitVec 4} (h : c.motorCmd = some (tag, n)) :
    ∃ act, (∀ p : Part, p.after c = p.takeRequest tag 3#8 fun d q => q.motorCmd n d c.gated act) ∧
      ∀ (m : Slot) (q : Part), c.refusedIn (q.motor m).slot.state = true → act m q = (.refusedState, q) := by
  cases c <;> cases h
  case arm =>
    refine ⟨Part.doArm, fun _ => rfl, fun m q => ?_⟩
    unfold Part.doArm
    cases (q.motor m).slot.state <;> simp [Instr.refusedIn]
  case disarm =>
    refine ⟨Part.doDisarm, fun _ => rfl, fun m q => ?_⟩
    unfold Part.doDisarm
    cases (q.motor m).slot.state <;> simp [Instr.refusedIn]
  case start =>
    refine ⟨Part.doStart, fun _ => rfl, fun m q => ?_⟩
    unfold Part.doStart
    cases (q.motor m).slot.state <;> simp [Instr.refusedIn]
  case park =>
    refine ⟨Part.doPark, fun _ => rfl, fun m q => ?_⟩
    unfold Part.doPark
    cases (q.motor m).slot.state <;> simp [Instr.refusedIn]
  case halt =>
    refine ⟨Part.doHalt, fun _ => rfl, fun m q => ?_⟩
    unfold Part.doHalt
    cases (q.motor m).slot.state <;> simp [Instr.refusedIn]
  case release =>
    refine ⟨Part.doRelease, fun _ => rfl, fun m q => ?_⟩
    unfold Part.doRelease
    cases (q.motor m).slot.state <;> simp [Instr.refusedIn]
  case ackFault =>
    refine ⟨Part.doAck, fun _ => rfl, fun m q => ?_⟩
    unfold Part.doAck
    cases (q.motor m).slot.state <;> simp [Instr.refusedIn]

theorem not_refusedIn_lockedOut (c : Instr) : c.refusedIn .lockedOut = false := by cases c <;> rfl

/-- Settles O48: in each case the request answers in the part it found. -/
theorem refusedCommandsChangeNothing : Obligations.RefusedCommandsChangeNothing := by
  refine ⟨fun s c tag n h hc => ?_, fun s tag h hd => ?_, fun s tag region segment last index mask params r h hd ht => ?_⟩
  · obtain ⟨act, hact, hrefused⟩ := after_motorCmd hc
    have refused : ∀ r,
        (∀ u, (s.part.asServed u s.part.transferEnded.free).motorCmd n (actsDegraded s.part.link.errors) c.gated act =
        (r, s.part.asServed u s.part.transferEnded.free)) →
        exec c s = .next { s with part := s.part.replied ⟨tag, 3#8, r.1, r.2⟩ } := by
      intro r hr
      rw [exec_eq_after, hact, Part.takeRequest_replied tag 3#8 _ r h hr]
    refine ⟨fun hn => refused (.badRequest, []) fun u => Part.motorCmd_noSlot _ _ _ _ hn,
      fun m hn => ⟨fun hg hd => ?_, fun hg => ?_⟩⟩
    · exact refused (.degraded, _) fun u => Part.motorCmd_degraded _ act hn (by simp [actsDegraded_of_gt hd, hg])
    · have hgate : (actsDegraded s.part.link.errors && c.gated) = false := by
        rcases hg with hg | hd
        · simp [hg]
        · simp [actsDegraded_of_lt hd]
      refine ⟨fun hl => refused (.locked, _) fun u => Part.motorCmd_locked _ act hn hgate hl, fun hr => ?_⟩
      refine refused (.refusedState, _) fun u => ?_
      have hnl : (s.part.motor m).slot.state ≠ .lockedOut := fun e => by
        rw [e, not_refusedIn_lockedOut] at hr
        exact absurd hr Bool.false_ne_true
      rw [Part.motorCmd_acts (s.part.asServed u s.part.transferEnded.free) act hn hgate hnl,
        hrefused m (s.part.asServed u s.part.transferEnded.free) hr]
      rfl
  · rw [exec_eq_after]
    have := Part.takeRequest_replied tag 6#8 (fun d q => q.doResetPart d) (.degraded, []) h fun u => by
      simp [Part.doResetPart, actsDegraded_of_gt hd]
    exact congrArg (fun t => Host.Outcome.next { s with part := t }) this
  · obtain ⟨u, v, -, hreq, hj⟩ := s.part.takeRequest_joined tag 2#8
      (fun d q => q.writeFrame d ⟨tag, region, segment, last, index, mask, params⟩) h.zero fun u => by
        simp [Part.writeFrame, ht, actsDegraded_of_gt hd, Part.dropStaging, Part.answer, Part.modLink, Part.asServed]
    have hw : ∀ q : Part, q.writeFrame (actsDegraded s.part.link.errors) ⟨tag, region, segment, last, index, mask, params⟩ =
        ((.degraded, []), q.modLink fun l => { l with staging := none }) := fun q => by
      simp only [Part.writeFrame, ht, actsDegraded_of_gt hd, if_true]
      rfl
    have hquiet : ((s.part.asServed u s.part.transferEnded.free).modLink fun l => { l with staging := none }).Quiet :=
      ⟨h.quiet.outbox, h.quiet.handed⟩
    simp only [hw, Part.gather_quiet _ hquiet, List.nil_append] at hreq hj
    have hv := Part.joinedBy_room hj h.taken h.numbered (by simp [FrameBody.isSample]) h.room
    rw [exec_eq_after]
    refine congrArg (fun t => Host.Outcome.next { s with part := t }) (Eq.trans hreq ?_)
    rw [hv, Part.replied, s.part.transferEnded_eq]
    rfl

/-! ## DISARM and RELEASE (R21, R30) -/

@[simp] theorem Triple.set_set {α : Type} (t : Triple α) (i : Ix3) (a b : α) : (t.set i a).set i b = t.set i b := by
  cases i <;> rfl

theorem Part.scheds_set (p : Part) (m : Slot) (q : Motor) (h : q.scheds = (p.motor m).scheds) (k : Slot) :
    ((p.motors.set m q).get k).scheds = (p.motor k).scheds := by
  by_cases hk : k = m
  · rw [hk, Triple.get_set_self, h]
  · rw [Triple.get_set_ne _ _ hk]
    rfl

/-- R19: a motor command, not gated, that is not refused and changes its own slot alone. -/
theorem Part.motorRequest_slot {p : Part} {tag : Byte} {n : BitVec 4} {m : Slot} (act : Slot → Part → ReplyCode × Part)
    (code : ReplyCode) (q : Motor) (h : p.Serving 1) (hn : n.toNat = m.toNat) (hl : (p.motor m).slot.state ≠ .lockedOut)
    (ha : ∀ u, act m (p.asServed u p.transferEnded.free) =
      (code, { p.asServed u p.transferEnded.free with motors := p.motors.set m q }))
    (hs : q.scheds = (p.motor m).scheds) :
    (p.takeRequest tag 3#8 fun d r => r.motorCmd n d false act) =
      { p.replied ⟨tag, 3#8, code, [byte q.slot.state.num]⟩ with motors := p.motors.set m q } := by
  rw [Part.takeRequest_effect tag 3#8 _ (code, [byte q.slot.state.num]) (p.motors.set m q) p.store h (fun u => ?_)
    (p.scheds_set m q hs)]
  · rw [Part.replied, p.transferEnded_eq]
  · rw [Part.motorCmd_acts (p.asServed u p.transferEnded.free) act hn (Bool.and_false _) hl, ha u]
    simp only [Part.motor, Triple.get_set_self]
    rfl

theorem Part.replied_setSame (p : Part) (r : Reply) (m : Slot) :
    { p.replied r with motors := p.motors.set m (p.motor m) } = p.replied r := by
  rw [Part.motor, Triple.set_get_self, Part.replied, p.transferEnded_eq]

/-- R19: a motor command, not gated, that changes nothing. -/
theorem Part.motorRequest_same {p : Part} {tag : Byte} {n : BitVec 4} {m : Slot} (act : Slot → Part → ReplyCode × Part)
    (code : ReplyCode) (h : p.Serving 1) (hn : n.toNat = m.toNat) (hl : (p.motor m).slot.state ≠ .lockedOut)
    (ha : ∀ u, act m (p.asServed u p.transferEnded.free) = (code, p.asServed u p.transferEnded.free)) :
    (p.takeRequest tag 3#8 fun d r => r.motorCmd n d false act) =
      p.replied ⟨tag, 3#8, code, [byte (p.motor m).slot.state.num]⟩ := by
  rw [Part.motorRequest_slot act code (p.motor m) h hn hl (fun u => ?_) rfl, Part.replied_setSame]
  rw [ha u, Part.motor, Triple.set_get_self]
  rfl

/-- Settles O50: DISARM and RELEASE answer in every state, and turn the gates off where they move the motor. -/
theorem disarmAndReleaseLeaveGatesOff : Obligations.DisarmAndReleaseLeaveGatesOff := by
  intro s tag n m h hn q
  have state : ∀ u, ((s.part.asServed u s.part.transferEnded.free).motor m).slot.state = q.slot.state := fun _ => rfl
  have disarm : exec (.disarm tag n) s =
      .next { s with part := s.part.takeRequest tag 3#8 fun d r => r.motorCmd n d false Part.doDisarm } := rfl
  have release : exec (.release tag n) s =
      .next { s with part := s.part.takeRequest tag 3#8 fun d r => r.motorCmd n d false Part.doRelease } := rfl
  have unlocked : q.slot.state ≠ .lockedOut → (s.part.motor m).slot.state ≠ .lockedOut := id
  refine ⟨fun hs => ?_, fun hs => ⟨q.gates.allOff s.part.now, GateStage.allOff_allOff _ _, ?_⟩,
    fun hs => ⟨q.gates.allOff s.part.now, GateStage.allOff_allOff _ _, ?_⟩, fun hs => ?_, fun hs => ?_⟩
  · rw [disarm, Part.motorRequest_same Part.doDisarm .ok h hn (unlocked (by simp [hs])) fun u => by
      simp only [Part.doDisarm, state, hs]]
    rw [show (s.part.motor m).slot.state = .off from hs]
    rfl
  · rw [disarm, Part.motorRequest_slot Part.doDisarm .ok { q.allOff s.part.now with
      slot := { q.slot with state := .off, copies := none }, setq := q.setq.flush, pace := { q.pace with trim := 0 } }
      h hn (unlocked (by simp [hs])) (fun u => by simp only [Part.doDisarm, state, hs]; rfl) rfl]
    rfl
  · rw [release, Part.motorRequest_slot Part.doRelease .ok { q.allOff s.part.now with
      slot := { q.slot with state := .ready, stopCause := none } } h hn (unlocked (by simp [hs])) (fun u => ?_) rfl]
    · rfl
    · simp only [Part.doRelease, state, hs, Part.modSlot, Part.modMotor, Triple.get_set_self, Triple.set_set]
      rfl
  · rw [disarm, Part.motorRequest_same Part.doDisarm .refusedState h hn (unlocked (by rcases hs with e | e | e | e <;> simp [e]))
      fun u => by rcases hs with e | e | e | e <;> simp only [Part.doDisarm, state, e]]
  · rw [release, Part.motorRequest_same Part.doRelease .refusedState h hn
      (unlocked (by rcases hs with e | e | e | e | e <;> simp [e]))
      fun u => by rcases hs with e | e | e | e | e <;> simp only [Part.doRelease, state, e]]

end Sys2Proof.Machine
end

section
/-! READ_STATUS and BAD_REQUEST (R167, R170), and the reset causes (R35). -/

namespace Sys2Proof.Machine

/-! ## Pages -/

/-- Every item finds room on a page. -/
def ItemsFit (l : List Item) : Prop := ∀ i ∈ l, i.length ≤ 24

@[simp] theorem itemsFit_nil : ItemsFit [] := fun _ h => absurd h List.not_mem_nil

@[simp] theorem itemsFit_cons (i : Item) (l : List Item) : ItemsFit (i :: l) ↔ i.length ≤ 24 ∧ ItemsFit l :=
  List.forall_mem_cons

@[simp] theorem itemsFit_append (a b : List Item) : ItemsFit (a ++ b) ↔ ItemsFit a ∧ ItemsFit b := List.forall_mem_append

@[simp] theorem itemsFit_map {α : Type} (f : α → Item) (l : List α) : ItemsFit (l.map f) ↔ ∀ a ∈ l, (f a).length ≤ 24 :=
  List.forall_mem_map

@[simp] theorem itemsFit_flatten_map {α : Type} (f : α → List Item) (l : List α) :
    ItemsFit (l.map f).flatten ↔ ∀ a ∈ l, ItemsFit (f a) := by
  induction l with
  | nil => simp
  | cons a l ih => simp [ih]

@[simp] theorem item8_length (n : Nat) : (item8 n).length = 1 := rfl

@[simp] theorem item16_length (n : Nat) : (item16 n).length = 2 := rfl

@[simp] theorem item32_length (t : Tick) : (item32 t).length = 4 := rfl

@[simp] theorem bytes32_length (t : Tick) : (bytes32 t).length = 4 := rfl

@[simp] theorem bytes16_length (w : BitVec 16) : (bytes16 w).length = 2 := rfl

@[simp] theorem itemFlag_length (b : Bool) : (itemFlag b).length = 1 := rfl

@[simp] theorem itemSigned_length (v : Int) : (itemSigned v).length = 2 := rfl

@[simp] theorem itemLong_length (n : Nat) : (itemLong n).length = 4 := rfl

@[simp] theorem itemOpt_fits {α : Type} (n : Nat) (f : α → Item) (o : Option α) (hn : n < 24) :
    (itemOpt n f o).length ≤ 24 ↔ ∀ a, o = some a → (f a).length < 24 := by
  cases o with
  | none =>
    simp only [itemOpt, List.length_cons, List.length_replicate, reduceCtorEq, false_implies, implies_true, iff_true]
    omega
  | some a =>
    simp only [itemOpt, List.length_cons, Option.some.injEq, forall_eq']
    omega

@[simp] theorem itemsFit_itemList {α : Type} (f : α → List Item) (l : List α) :
    ItemsFit (itemList f l) ↔ ∀ a ∈ l, ItemsFit (f a) := by
  simp [itemList]

/-- R170: every page has 24 bytes. -/
theorem pagesFrom_length {items : List Item} (hi : ItemsFit items) {page : List Byte} (hp : page.length ≤ 24) :
    ∀ b ∈ pagesFrom page items, b.length = 24 := by
  induction items generalizing page with
  | nil =>
    intro b hb
    rw [pagesFrom, List.mem_singleton] at hb
    rw [hb, List.length_append, List.length_replicate]
    omega
  | cons i l ih =>
    obtain ⟨hil, hl⟩ := (itemsFit_cons i l).1 hi
    intro b hb
    rw [pagesFrom] at hb
    split at hb
    · exact ih hl (by rwa [List.length_append]) b hb
    · rcases List.mem_cons.1 hb with rfl | hb
      · rw [List.length_append, List.length_replicate]
        omega
      · exact ih hl hil b hb

theorem Motor.items_fit (q : Motor) : ItemsFit q.items := by
  simp [Motor.items, SlotBlock.items, SetQueue.items, Motor.planItems, Motor.seqItems, Motor.finderItems, Motor.protItems,
    LastPlan.phaseItems, Request.items, faultItems]

theorem Upstream.items_fit (u : Upstream) : ItemsFit u.items := by simp [Upstream.items]

theorem ReqRef.bytes_length (r : ReqRef) : r.bytes.length = 3 := by cases r <;> rfl

theorem Part.samplerItems_fit (p : Part) : ItemsFit p.samplerItems := by
  have hold : ∀ h : Hold, h.item.length ≤ 24 := by
    intro h
    cases h <;> simp [Hold.item, ReqRef.bytes_length]
  simp only [Part.samplerItems]
  cases p.sampler.conv <;> simp [hold]

theorem Part.items_fit (p : Part) (sc : SectionId) : ItemsFit (p.items sc) := by
  cases sc with
  | link => simp [Part.items, Part.linkItems, Upstream.items_fit, stagingItem]
  | motor m => exact (p.motor m).items_fit
  | sampler => exact p.samplerItems_fit
  | store => simp [Part.items, Store.items]
  | timebase => simp [Part.items, Part.timebaseItems]
  | device => simp [Part.items, Part.deviceItems]

/-! ## READ_STATUS and BAD_REQUEST -/

theorem sectionOf_of_ge {n : BitVec 4} (h : 8 ≤ n.toNat) : sectionOf n = none := by
  unfold sectionOf
  generalize n.toNat = k at h
  match k, h with
  | j + 8, _ => rfl

/-- R170: the reply to a request for a page, in the part that it finds. -/
theorem Part.readStatus_section (p : Part) {sect : BitVec 4} {sc : SectionId} (page : Byte) (h : sectionOf sect = some sc) :
    p.readStatus sect page = (pageReply (p.items sc) page, p) := by
  simp only [Part.readStatus, h]

/-- Which of the model's counters a snapshot is taken at makes no difference. -/
theorem Part.items_asServed (p : Part) (u : Upstream) (n : Nat) (sc : SectionId) :
    (p.asServed u n).items sc = ({ p with link := p.link.served, up := u } : Part).items sc := by
  cases sc <;> rfl

theorem Part.readStatus_replied {p : Part} (tag : Byte) (sect : BitVec 4) (page : Byte) {sc : SectionId} (h : p.Serving 1)
    (hs : sectionOf sect = some sc) :
    ∃ u, (u = p.up ∨ u = p.transferEnded.up) ∧
      let r := pageReply (({ p with link := p.link.served, up := u } : Part).items sc) page
      (p.takeRequest tag 4#8 fun _ q => q.readStatus sect page) = p.replied ⟨tag, 4#8, r.1, r.2⟩ := by
  obtain ⟨u, hu, ht⟩ := Part.takeRequest_answer tag 4#8 (fun _ q => q.readStatus sect page)
    (fun u => pageReply (({ p with link := p.link.served, up := u } : Part).items sc) page) p.motors p.store h
    (fun u => by rw [Part.readStatus_section _ page hs, p.items_asServed]; rfl) fun _ => rfl
  exact ⟨u, hu, by rw [ht, Part.replied_same]⟩

/-- Settles O59: each answer is that of a request without effect; the pages are those of `pagesFrom`. -/
theorem statusPagesAreAnswered : Obligations.StatusPagesAreAnswered := by
  intro s tag h
  have replied : ∀ (code : Byte) (f : Bool → Part → (ReplyCode × List Byte) × Part) (r : ReplyCode × List Byte),
      (∀ d (q : Part), q.motors = s.part.motors → f d q = (r, q)) →
      (.next { s with part := s.part.takeRequest tag code f } : Host.Outcome State Fault Refusal) =
        .next { s with part := s.part.replied ⟨tag, code, r.1, r.2⟩ } := fun code f r hf => by
    rw [Part.takeRequest_replied tag code f r h fun u => hf _ _ rfl]
  refine ⟨fun code => replied code _ (.badRequest, []) fun _ _ _ => rfl, fun n => ⟨fun hn => ?_, fun m hn => ?_⟩,
    fun sect page => ⟨fun hs => ?_, fun sc hs => ?_⟩⟩
  · exact replied 3#8 _ (.badRequest, []) fun _ q _ => by simp only [Part.refusalData, slotOfNat_of_ge hn]; rfl
  · exact replied 3#8 _ (.badRequest, [byte (s.part.motor m).slot.state.num]) fun _ q hq => by
      simp only [Part.refusalData, hn, slotOfNat_toNat, Part.motor, hq]
      rfl
  · exact replied 4#8 _ (.badRequest, []) fun _ q _ => by simp only [Part.readStatus, sectionOf_of_ge hs]; rfl
  · obtain ⟨u, hu, ht⟩ := Part.readStatus_replied tag sect page h hs
    refine ⟨u, hu, ?_⟩
    have hexec : exec (.readStatus tag sect page) s =
        .next { s with part := s.part.takeRequest tag 4#8 fun _ q => q.readStatus sect page } := rfl
    simp only [pageReply] at ht
    refine ⟨fun hp => ?_, fun bytes hb => ⟨?_, ?_⟩⟩
    · rw [hexec, ht, List.getElem?_eq_none hp]
    · rw [hexec, ht, hb]
    · exact pagesFrom_length (Part.items_fit _ sc) (Nat.zero_le _) bytes (List.mem_of_getElem? hb)

/-! ## Reset causes (R35) -/

/-- R35, R170: DEVICE fits on one page, which begins with the three flags of the reset-cause record. -/
theorem Part.deviceItems_page (p : Part) : ∃ rest : List Byte, pageReply p.deviceItems 0#8 =
    (.ok, [0#8, 1#8, byte (b2n p.cause.power), byte (b2n p.cause.enable), byte (b2n p.cause.soft)] ++ rest) := by
  simp only [pageReply, Part.deviceItems, pagesFrom, item16_length, itemFlag, item8, List.nil_append,
    List.length_append, List.length_nil, List.length_cons]
  exact ⟨_, rfl⟩

/-- Settles O18: the record after each reset and each request that speaks of it. -/
theorem resetCausesRecorded : Obligations.ResetCausesRecorded := by
  have acted : ∀ (s : State) (f : Bool → Part → (ReplyCode × List Byte) × Part) (tag code : Byte) (c : ResetCause),
      s.part.Serving 1 → (∀ u n, (f (actsDegraded s.part.link.errors) (s.part.asServed u n)).2.cause = c) →
      (s.part.takeRequest tag code f).cause = c := by
    intro s f tag code c h hf
    refine Part.endTransfer_induct (P := fun q => q.cause = c) s.part _ _ h.en h.taken (fun _ _ hq => hq) fun u n => ?_
    rw [Part.goodFrame_acted { s.part with up := u, free := n } _ h.notLost]
    exact hf u n
  have reset : ∀ p : Part, p.resetBlocks.cause = p.cause := fun p => (Part.OnMotors.resetP p).cause
  refine ⟨fun s e pins => ⟨_, rfl, rfl⟩, fun s pins => ⟨_, rfl, ?_⟩, fun s tag h hd => ⟨_, rfl, ?_⟩,
    fun s tag h => ⟨_, rfl, ?_⟩, fun s tag h => ?_⟩
  · simp only [Part.enableReset, reset]
  · refine acted s _ _ _ _ h fun u n => ?_
    simp only [Part.doResetPart, actsDegraded_of_lt hd, Bool.false_eq_true, if_false, Part.resetPart, reset]
    rfl
  · exact acted s _ _ _ _ h fun u n => rfl
  · obtain ⟨u, -, ht⟩ := Part.readStatus_replied tag 7#4 0#8 h (sc := .device) rfl
    obtain ⟨rest, hr⟩ := Part.deviceItems_page { s.part with link := s.part.link.served, up := u }
    have hexec : exec (.readStatus tag 7#4 0#8) s =
        .next { s with part := s.part.takeRequest tag 4#8 fun _ q => q.readStatus 7#4 0#8 } := rfl
    simp only [Part.items, hr] at ht
    exact ⟨_, by rw [hexec, ht], rfl⟩

end Sys2Proof.Machine
end

section
/-! What a motor is like after it has left RUNNING or START_PENDING (R27, R28, R31, R117), before and after the frames of the
command have been handed on. -/

namespace Sys2Proof.Machine

/-! ## The safe action and the trip action (R17) -/

/-- R17: one phase under LOW_BRAKE, its HIGH gate off for good, its LOW gate on or waiting. -/
def GateStage.BrakesAt (st : GateStage) (x : Phase) : Prop :=
  (st.gateAt x .high).on = false ∧ (st.gateAt x .high).pend = none ∧
    ((st.gateAt x .low).on = true ∨ (st.gateAt x .low).pend.isSome = true)

/-- LOW_BRAKE's requests for one phase. -/
def GateStage.brake (st : GateStage) (now : Tick) (dt : Nat) (x : Phase) : GateStage :=
  (st.turnOff now x .high).turnOn now dt false x .low

theorem GateStage.brake_brakesAt (st : GateStage) (now : Tick) (dt : Nat) (x : Phase) : (st.brake now dt x).BrakesAt x := by
  have hhigh : (st.brake now dt x).gateAt x .high = (st.turnOff now x .high).gateAt x .high :=
    turnOn_other _ _ _ _ (by simp)
  have hoff : ((st.turnOff now x .high).gateAt x .high).on = false ∧ ((st.turnOff now x .high).gateAt x .high).pend = none := by
    rw [turnOff_self]
    split
    · exact ⟨rfl, rfl⟩
    · exact ⟨by simp_all, rfl⟩
  refine ⟨hhigh ▸ hoff.1, hhigh ▸ hoff.2, ?_⟩
  rw [GateStage.brake, turnOn_self]
  split
  · exact .inl ‹_›
  · split
    · exact .inl rfl
    · exact .inr rfl

/-- The requests for another phase leave this one as it is. -/
theorem GateStage.BrakesAt.brake {st : GateStage} {x y : Phase} (h : st.BrakesAt y) (now : Tick) (dt : Nat) (hne : y ≠ x) :
    (st.brake now dt x).BrakesAt y := by
  have kept : ∀ s, (st.brake now dt x).gateAt y s = st.gateAt y s := fun s => by
    rw [GateStage.brake, turnOn_other _ _ _ _ (fun e => hne e.1), turnOff_other _ _ (fun e => hne e.1)]
  unfold GateStage.BrakesAt
  rw [kept .high, kept .low]
  exact h

/-- R17, LOW_BRAKE. -/
theorem GateStage.lowBrake_braking (st : GateStage) (now : Tick) (dt : Nat) : (st.lowBrake now dt).Braking := by
  have hl : st.lowBrake now dt = ((st.brake now dt .u).brake now dt .v).brake now dt .w := rfl
  rw [hl]
  intro x
  cases x with
  | u => exact ((GateStage.brake_brakesAt st now dt .u).brake now dt (by simp)).brake now dt (by simp)
  | v => exact (GateStage.brake_brakesAt _ now dt .v).brake now dt (by simp)
  | w => exact GateStage.brake_brakesAt _ now dt .w

theorem GateStage.action_holds (st : GateStage) (a : GateAction) (now : Tick) (dt : Nat) : (st.action a now dt).Holds a := by
  cases a with
  | allOff => exact st.allOff_allOff now
  | lowBrake => exact st.lowBrake_braking now dt

/-! ## A motor that leaves (R28) -/

/-- R28: the motor's own part of leaving RUNNING or START_PENDING. -/
def Motor.leave (q : Motor) (st : MotorState) (cause : Option StopCause) : Motor :=
  { q with
    slot := { q.slot with state := st, park := false, stopCause := cause, start := none }
    pace := { q.pace with trim := 0, carrier := none }
    setq := q.setq.flush
    planner := { q.planner with last := none, prev := none }
    seqr := { q.seqr with run := none }
    scheds := q.scheds.mapReqs Request.left
    samp := { q.samp with missedState := bumpBy q.samp.missedState q.scheds.unfrozen } }

theorem Schedules.mapReqs_mapReqs (s : Schedules) (f g : Request → Request) : (s.mapReqs f).mapReqs g = s.mapReqs (g ∘ f) := by
  obtain ⟨latest, older⟩ := s
  simp only [Schedules.mapReqs, List.map_map, Option.map_map, Schedules.mk.injEq]
  exact ⟨by cases latest <;> simp, List.map_congr_left fun sc _ => by simp⟩

theorem Part.leaveRun_motor (p : Part) (m : Slot) (st : MotorState) (c : Option StopCause) :
    (p.leaveRun m st c).motor m = (p.motor m).leave st c := by
  simp only [Part.leaveRun, modMotor_motor_self, p.cancelUnfrozen_motor_self, Schedules.mapReqs_mapReqs]
  rfl

/-- R117: leaving cancels requests on the waiting list. -/
theorem Part.leaveRun_waiting (p : Part) (m : Slot) (st : MotorState) (c : Option StopCause) :
    (p.leaveRun m st c).sampler.waiting = p.sampler.waiting.filter fun w => !w.ofMotor m := rfl

theorem Schedules.unfrozen_eq_count (q : Motor) : q.scheds.unfrozen = q.unfrozenCount := by
  have count : ∀ l : List Schedule, (l.map fun sc => (sc.reqs.filter (·.status == .waiting)).length).sum =
      ((l.map (·.reqs)).flatten.filter fun r => r.status == .waiting).length := by
    intro l
    induction l with
    | nil => rfl
    | cons sc l ih => simp [List.filter_append, ih]
  exact count _

/-- The schedules of a motor that has left are those before with every request resolved. -/
theorem Schedules.mapReqs_resolved (s : Schedules) (f : Request → Request) : s.Resolved (s.mapReqs f) f where
  latest sc h := ⟨{ sc with reqs := sc.reqs.map f }, by simp [Schedules.mapReqs, h], id, rfl⟩
  absent h := by simp [Schedules.mapReqs, h]
  older sc' h := by
    obtain ⟨sc, hs, rfl⟩ := List.mem_map.1 h
    exact ⟨sc, hs, rfl⟩
  kept sc h _ := List.mem_map.2 ⟨sc, h, rfl⟩

/-- R120: handing on keeps the schedules resolved as they are: it marks the latest one, and gives up earlier ones with no
request frozen. -/
theorem Schedules.Resolved.handOn {b a : Schedules} {f : Request → Request} (h : b.Resolved a f) : b.Resolved a.handOn f where
  latest sc hs := by
    obtain ⟨sc', h1, h2, h3⟩ := h.latest sc hs
    refine ⟨if sc'.complete then { sc' with handed := true } else sc', by simp [Schedules.handOn, h1], ?_, ?_⟩
    · split
      · exact fun _ => rfl
      · exact h2
    · split <;> (rw [h3])
  absent hs := by simp [Schedules.handOn, h.absent hs]
  older sc' hs := h.older sc' (List.mem_of_mem_filter hs)
  kept sc hs hf := by
    obtain ⟨r, hr, he⟩ := hf
    refine List.mem_filter.2 ⟨h.kept sc hs ⟨r, hr, he⟩, ?_⟩
    have hno : (sc.reqs.map f).all (·.status.resolved) = false := by
      simp only [List.all_eq_false, List.mem_map]
      exact ⟨f r, ⟨r, hr, rfl⟩, by simp [he, ReqStatus.resolved]⟩
    simp [Schedule.complete, hno]

/-- R28: what holds of a motor once it has left. -/
theorem Part.leaveRun_stopped (p : Part) (m : Slot) (st : MotorState) (c : Option StopCause) :
    p.Stopped (p.leaveRun m st c) m := by
  have hm := p.leaveRun_motor m st c
  exact
    { park := by rw [hm]; rfl
      start := by rw [hm]; rfl
      trim := by rw [hm]; rfl
      carrier := by rw [hm]; rfl
      queue := by rw [hm]; rfl
      flags := by rw [hm]; exact ⟨rfl, rfl⟩
      starved := by rw [hm]; rfl
      plan := by rw [hm]; exact ⟨rfl, rfl⟩
      sequencer := by rw [hm]; rfl
      requests := by rw [hm]; exact (p.motor m).scheds.mapReqs_resolved Request.left
      missed := by
        rw [hm, ← Schedules.unfrozen_eq_count]
        rfl
      list := by
        intro w hw
        rw [p.leaveRun_waiting] at hw
        simpa using (List.mem_filter.1 hw).2 }

/-- A motor that has left, with another state entered, its gates acted on and its protection counts raised. -/
theorem Part.Stopped.congr {p x t : Part} {m : Slot} (h : p.Stopped x m) (sl : SlotBlock) (g : GateStage) (pr : MotorProt)
    (hq : t.motor m = { x.motor m with slot := sl, gates := g, prot := pr }) (hpark : sl.park = false)
    (hstart : sl.start = none) (list : ∀ w ∈ t.sampler.waiting, w.ofMotor m = false) : p.Stopped t m where
  park := by rw [hq]; exact hpark
  start := by rw [hq]; exact hstart
  trim := by rw [hq]; exact h.trim
  carrier := by rw [hq]; exact h.carrier
  queue := by rw [hq]; exact h.queue
  flags := by rw [hq]; exact h.flags
  starved := by rw [hq]; exact h.starved
  plan := by rw [hq]; exact h.plan
  sequencer := by rw [hq]; exact h.sequencer
  requests := by rw [hq]; exact h.requests
  missed := by rw [hq]; exact h.missed
  list := list

/-! ## Handing on -/

/-- t is x at the end of a command: its schedules handed on, its notices taken, its frames joined (R120, R127). -/
def Part.HandsOn (x t : Part) : Prop :=
  ∃ u n, t = { x with motors := x.motors.map fun (q : Motor) => q.modScheds Schedules.handOn, outbox := [], up := u, free := n }

theorem Part.settle_handsOn (x : Part) : x.HandsOn x.settle := by
  rw [Part.settle, Part.joinAll_up]
  exact ⟨_, _, rfl⟩

theorem Part.gather_handsOn (x : Part) (v : Upstream) : x.HandsOn { x.gather.2 with up := v } := ⟨_, _, rfl⟩

theorem Part.HandsOn.motor {x t : Part} (h : x.HandsOn t) (k : Slot) : t.motor k = (x.motor k).modScheds Schedules.handOn := by
  obtain ⟨u, n, rfl⟩ := h
  simp only [Part.motor, Triple.get_map]

theorem Part.HandsOn.sampler {x t : Part} (h : x.HandsOn t) : t.sampler = x.sampler := by
  obtain ⟨u, n, rfl⟩ := h
  rfl

/-- A motor with no schedule complete is the same after handing on. -/
theorem Part.HandsOn.motor_same {x t : Part} (h : x.HandsOn t) {k : Slot}
    (hk : ∀ sc ∈ (x.motor k).scheds.latest.toList ++ (x.motor k).scheds.older, sc.complete = false) : t.motor k = x.motor k := by
  rw [h.motor k, Motor.modScheds, Schedules.handOn_quiet _ hk]

theorem Part.Stopped.handsOn {p x t : Part} {m : Slot} (h : p.Stopped x m) (k : x.HandsOn t) : p.Stopped t m := by
  have hm := k.motor m
  exact
    { park := by rw [hm]; exact h.park
      start := by rw [hm]; exact h.start
      trim := by rw [hm]; exact h.trim
      carrier := by rw [hm]; exact h.carrier
      queue := by rw [hm]; exact h.queue
      flags := by rw [hm]; exact h.flags
      starved := by rw [hm]; exact h.starved
      plan := by rw [hm]; exact h.plan
      sequencer := by rw [hm]; exact h.sequencer
      requests := by rw [hm]; exact h.requests.handOn
      missed := by rw [hm]; exact h.missed
      list := by rw [k.sampler]; exact h.list }

theorem Part.SafeStopped.handsOn {p x t : Part} {m : Slot} {c : StopCause} (h : p.SafeStopped x m c) (k : x.HandsOn t) :
    p.SafeStopped t m c where
  state := by rw [k.motor m]; exact h.state
  stopCause := by rw [k.motor m]; exact h.stopCause
  copies := by rw [k.motor m]; exact h.copies
  gates := by rw [k.motor m]; exact h.gates
  stopped := h.stopped.handsOn k

/-- The frame of one motor, at the end of a command that began with every complete schedule handed on. -/
theorem Part.Beside.handsOn {p x t : Part} {m : Slot} (h : p.Beside x m) (hq : p.Quiet) (k : x.HandsOn t) : p.Beside t m := by
  refine { others := fun j hj => ?_, tb := ?_, en := ?_, bus := ?_, cause := ?_, store := ?_ }
  · rw [k.motor_same fun sc hs => hq.handed j sc (by rwa [h.others j hj] at hs), h.others j hj]
  all_goals obtain ⟨u, n, rfl⟩ := k
  · exact h.tb
  · exact h.en
  · exact h.bus
  · exact h.cause
  · exact h.store

/-! ## SAFE_STOP (R27) -/

/-- A SAFE_STOP request touches the named motor, the waiting list and the notices alone. -/
theorem Part.safeStop_frame (p : Part) (c : StopCause) (m : Slot) : ∃ ms w ob,
    p.safeStop c m = { p with motors := ms, sampler := { p.sampler with waiting := w }, outbox := ob } := by
  unfold Part.safeStop
  split <;> exact ⟨_, _, _, rfl⟩

theorem Part.safeStop_motor_ne (p : Part) (c : StopCause) {m k : Slot} (h : k ≠ m) : (p.safeStop c m).motor k = p.motor k := by
  unfold Part.safeStop
  split
  · rw [Part.notice_motor, modMotor_motor_ne _ _ h, leaveRun_motor_ne _ _ _ h]
  · rw [Part.notice_motor, modMotor_motor_ne _ _ h, leaveRun_motor_ne _ _ _ h]
  all_goals rfl

theorem Part.safeStop_motor_self (p : Part) (c : StopCause) (m : Slot)
    (h : (p.motor m).slot.state = .running ∨ (p.motor m).slot.state = .startPending) :
    (p.safeStop c m).motor m = ((p.motor m).leave .safeStop (some c)).safeAction p.now := by
  rw [p.safeStop_driven c m h, Part.notice_motor, modMotor_motor_self, p.leaveRun_motor]

theorem Part.safeStop_waiting (p : Part) (c : StopCause) (m : Slot)
    (h : (p.motor m).slot.state = .running ∨ (p.motor m).slot.state = .startPending) :
    (p.safeStop c m).sampler.waiting = p.sampler.waiting.filter fun w => !w.ofMotor m := by
  rw [p.safeStop_driven c m h]
  rfl

theorem Part.safeStop_outbox (p : Part) (c : StopCause) (m : Slot)
    (h : (p.motor m).slot.state = .running ∨ (p.motor m).slot.state = .startPending) :
    (p.safeStop c m).outbox = p.outbox ++ [.safeStop m c] := by
  rw [p.safeStop_driven c m h]
  rfl

/-- R27, R28: a driven motor that has been stopped; t may differ from the part right after the request in what does not
concern the motor. -/
theorem Part.safeStopped_of_motor {p t : Part} {m : Slot} {c : StopCause}
    (h : (p.motor m).slot.state = .running ∨ (p.motor m).slot.state = .startPending)
    (hm : t.motor m = (p.safeStop c m).motor m) (hw : ∀ w ∈ t.sampler.waiting, w.ofMotor m = false) : p.SafeStopped t m c := by
  rw [p.safeStop_motor_self c m h] at hm
  exact
    { state := by rw [hm]; rfl
      stopCause := by rw [hm]; rfl
      copies := by rw [hm]; rfl
      gates := by
        rw [hm]
        exact GateStage.action_holds _ _ _ _
      stopped := by
        refine (p.leaveRun_stopped m .safeStop (some c)).congr (t.motor m).slot (t.motor m).gates (t.motor m).prot ?_
          (by rw [hm]; rfl) (by rw [hm]; rfl) hw
        rw [hm, p.leaveRun_motor]
        rfl }

theorem Part.safeStop_safeStopped (p : Part) (c : StopCause) (m : Slot)
    (h : (p.motor m).slot.state = .running ∨ (p.motor m).slot.state = .startPending) : p.SafeStopped (p.safeStop c m) m c := by
  refine Part.safeStopped_of_motor h rfl fun w hw => ?_
  rw [p.safeStop_waiting c m h] at hw
  simpa using (List.mem_filter.1 hw).2

theorem Part.safeStop_beside (p : Part) (c : StopCause) (m : Slot) : p.Beside (p.safeStop c m) m := by
  refine { others := fun k hk => p.safeStop_motor_ne c hk, tb := ?_, en := ?_, bus := ?_, cause := ?_, store := ?_ }
  all_goals
    obtain ⟨ms, w, ob, e⟩ := p.safeStop_frame c m
    rw [e]
  exact Store.Corrected.refl _

/-! ## Frames that a stop completes (R28, R117, R120) -/

/-- Where no other motor has a complete schedule, the frames built are those of one motor. -/
theorem Part.readyFrames_of_motor (p : Part) (m : Slot) (h : ∀ k, k ≠ m → (p.motor k).scheds.ready = []) :
    p.readyFrames = (p.motor m).scheds.ready.map fun sc => FrameBody.sample (sc.frame m) := by
  simp only [Part.readyFrames, Ix3.all, List.map_cons, List.map_nil, List.flatten_cons, List.flatten_nil, List.append_nil]
  cases m with
  | i0 => simp [h .i1 (by simp), h .i2 (by simp)]
  | i1 => simp [h .i0 (by simp), h .i2 (by simp)]
  | i2 => simp [h .i0 (by simp), h .i1 (by simp)]

theorem Request.left_resolved (r : Request) : r.left.status.resolved = (r.status != .frozen) := by
  cases h : r.status <;> simp [Request.left, Request.givenUp, h, ReqStatus.resolved]

theorem Schedule.complete_left (sc : Schedule) : ({ sc with reqs := sc.reqs.map Request.left } : Schedule).complete =
    (!sc.handed && !sc.reqs.isEmpty && sc.reqs.all fun r => r.status != .frozen) := by
  simp only [Schedule.complete, List.isEmpty_map, List.all_map, Function.comp_def, Request.left_resolved]
  cases sc.handed <;> simp

/-- The sample frames of the schedules that a motor completes by leaving. -/
theorem Motor.leave_ready (q : Motor) (m : Slot) (st : MotorState) (c : Option StopCause) :
    ((q.leave st c).scheds.ready.map fun sc => FrameBody.sample (sc.frame m)) = q.lastFrames m := by
  have hl : (q.scheds.mapReqs Request.left).older ++ (q.scheds.mapReqs Request.left).latest.toList =
      (q.scheds.older ++ q.scheds.latest.toList).map fun sc => { sc with reqs := sc.reqs.map Request.left } := by
    cases h : q.scheds.latest <;> simp [Schedules.mapReqs, h]
  simp only [Motor.leave, Schedules.ready, hl, List.filter_map, Function.comp_def, Schedule.complete_left, List.map_map,
    Motor.lastFrames]

theorem Motor.lastFrames_nil {q : Motor} (h : q.NothingInFlight) (m : Slot) : q.lastFrames m = [] := by
  simp only [Motor.lastFrames, List.map_eq_nil_iff, List.filter_eq_nil_iff]
  intro sc hs
  rcases h sc (by simp only [List.mem_append] at hs ⊢; exact hs.symm) with hh | hr
  · simp [hh]
  · simp [hr]

/-- What joins at the end of a stop of one motor. -/
theorem Part.joining_of_left {p x : Part} {m : Slot} {st : MotorState} {c : Option StopCause} (hq : p.Quiet)
    (others : ∀ k, k ≠ m → x.motor k = p.motor k) (hm : (x.motor m).scheds = ((p.motor m).leave st c).scheds) :
    x.joining = x.outbox.map FrameBody.notice ++ (p.motor m).lastFrames m := by
  rw [Part.joining, x.readyFrames_of_motor m fun k hk => ?_, hm, Motor.leave_ready]
  rw [others k hk]
  exact Schedules.ready_quiet _ (hq.handed k)

/-! ## Any order (R131) -/

theorem anyOrder_perm {α : Type} (k n : Nat) (l : List α) : (anyOrder k n l).Perm l := by
  induction k generalizing n l with
  | zero => exact .refl _
  | succ k ih =>
    match l with
    | [] => exact .refl _
    | [x] => exact .refl _
    | x :: y :: l =>
      simp only [anyOrder]
      split
      · rename_i a ha
        obtain ⟨hlt, rfl⟩ := List.getElem?_eq_some_iff.1 ha
        exact (List.Perm.cons _ (ih _ _)).trans (List.getElem_cons_eraseIdx_perm hlt)
      · exact .refl _

/-- The BUS_CROSS notices put in order among the frames: the same frames. -/
theorem crossInOrder_perm (cs l : List FrameBody) (h : cs.length = (l.filter FrameBody.isCross).length) :
    (crossInOrder cs l).Perm (cs ++ l.filter fun f => !f.isCross) := by
  induction l generalizing cs with
  | nil =>
    rw [List.filter_nil, List.length_nil, List.length_eq_zero_iff] at h
    rw [h]
    exact .refl _
  | cons f l ih =>
    cases cs with
    | nil =>
      have hno : ∀ x ∈ f :: l, x.isCross = false := by
        have := List.filter_eq_nil_iff.1 (List.length_eq_zero_iff.1 h.symm)
        intro x hx
        exact Bool.eq_false_iff.2 (this x hx)
      rw [List.nil_append, List.filter_eq_self.2 fun x hx => by rw [hno x hx]; rfl]
      exact .refl _
    | cons c cs =>
      rw [crossInOrder]
      cases hf : f.isCross with
      | true =>
        rw [List.filter_cons_of_pos hf, List.length_cons, List.length_cons, Nat.add_right_cancel_iff] at h
        simp only [if_true, hf, Bool.not_true, Bool.false_eq_true, not_false_eq_true, List.filter_cons_of_neg, List.cons_append]
        exact .cons _ (ih cs h)
      | false =>
        rw [List.filter_cons_of_neg (by simp [hf])] at h
        simp only [hf, Bool.false_eq_true, if_false, Bool.not_false, List.filter_cons_of_pos]
        exact (List.Perm.cons f (ih (c :: cs) h)).trans List.perm_middle.symm

theorem arranged_perm (n : Nat) (l : List FrameBody) : (arranged n l).Perm l := by
  have hp := anyOrder_perm l.length n l
  refine (crossInOrder_perm _ _ (hp.filter _).length_eq.symm).trans ?_
  refine (List.Perm.append_left _ (hp.filter _)).trans ?_
  exact List.filter_append_perm FrameBody.isCross l

/-- R127, R131: the frames that a command makes are its notices and the sample frames it completes, in some order. -/
theorem Part.gather_perm (x : Part) : x.gather.1.Perm x.joining := arranged_perm _ _

end Sys2Proof.Machine
end

section
/-! HALT and PARK (R25, R26, R28, R29): the motor leaves, its frames and the reply join with the transfer's end among them. -/

namespace Sys2Proof.Machine

theorem exec_of_after {c : Instr} {s : State} {t : Part} (h : s.part.after c = t) : exec c s = .next { s with part := t } := by
  rw [exec_eq_after, h]

/-- R19: a motor command, not gated, that is not refused and leaves the upstream side to its frames. -/
theorem Part.motorRequest_joined {p : Part} (tag : Byte) {n : BitVec 4} {m : Slot} (act : Slot → Part → ReplyCode × Part)
    (code : ReplyCode) (effect : Part → Part) (h : p.Serving 0) (hn : n.toNat = m.toNat)
    (hl : (p.motor m).slot.state ≠ .lockedOut)
    (ha : ∀ u, act m (p.asServed u p.transferEnded.free) = (code, effect (p.asServed u p.transferEnded.free)))
    (hup : ∀ q : Part, (effect q).up = q.up) :
    ∃ u v, let x := effect (p.asServed u p.transferEnded.free)
      (p.takeRequest tag 3#8 fun d q => q.motorCmd n d false act) = { x.gather.2 with up := v } ∧
        p.up.JoinedBy v (x.gather.1 ++ [.reply ⟨tag, 3#8, code, [byte (x.motor m).slot.state.num]⟩]) := by
  have hcmd : ∀ u, (p.asServed u p.transferEnded.free).motorCmd n (actsDegraded p.link.errors) false act =
      let x := effect (p.asServed u p.transferEnded.free)
      ((code, [byte (x.motor m).slot.state.num]), x) := fun u => by
    rw [Part.motorCmd_acts (p.asServed u p.transferEnded.free) act hn (Bool.and_false _) hl, ha u]
  obtain ⟨u, v, -, ht, hj⟩ := p.takeRequest_joined tag 3#8 (fun d q => q.motorCmd n d false act) h fun u => by
    rw [hcmd]
    exact hup _
  simp only [hcmd] at ht hj
  exact ⟨u, v, ht, hj⟩

theorem Part.Quiet.asServed {p : Part} (h : p.Quiet) (u : Upstream) (n : Nat) : (p.asServed u n).Quiet := ⟨h.outbox, h.handed⟩

theorem Part.Beside.of_asServed {p t : Part} {m : Slot} {u : Upstream} {n : Nat} (h : (p.asServed u n).Beside t m) :
    p.Beside t m := ⟨h.others, h.tb, h.en, h.bus, h.cause, h.store⟩

theorem Part.Stopped.of_asServed {p t : Part} {m : Slot} {u : Upstream} {n : Nat} (h : (p.asServed u n).Stopped t m) :
    p.Stopped t m :=
  ⟨h.park, h.start, h.trim, h.carrier, h.queue, h.flags, h.starved, h.plan, h.sequencer, h.requests, h.missed, h.list⟩

theorem Part.SafeStopped.of_asServed {p t : Part} {m : Slot} {c : StopCause} {u : Upstream} {n : Nat}
    (h : (p.asServed u n).SafeStopped t m c) : p.SafeStopped t m c :=
  ⟨h.state, h.stopCause, h.copies, h.gates, h.stopped.of_asServed⟩

/-! ## HALT -/

/-- Settles O53: a driven motor leaves by `safeStop_safeStopped`; elsewhere the request answers only. -/
theorem haltStopsTheMotor : Obligations.HaltStopsTheMotor := by
  intro s tag n m h hn q
  have state : ∀ u, ((s.part.asServed u s.part.transferEnded.free).motor m).slot.state = q.slot.state := fun _ => rfl
  have halt : exec (.halt tag n) s =
      .next { s with part := s.part.takeRequest tag 3#8 fun d r => r.motorCmd n d false Part.doHalt } := rfl
  refine ⟨fun hd => ?_, fun h1 hs => ?_, fun h1 hs => ?_, fun h1 hs => ?_⟩
  · obtain ⟨u, v, ht, hj⟩ := Part.motorRequest_joined tag Part.doHalt .ok (fun x => x.safeStop .halt m) h hn
      (fun e => by rcases hd with hd | hd <;> exact absurd (hd.symm.trans e) (by simp))
      (fun u => by rcases hd with hd | hd <;> simp only [Part.doHalt, state, hd])
      (fun x => by obtain ⟨ms, w, ob, e⟩ := x.safeStop_frame .halt m; rw [e])
    let p := s.part.asServed u s.part.transferEnded.free
    have hq : p.Quiet := h.quiet.asServed _ _
    have hon := (p.safeStop .halt m).gather_handsOn v
    have stopped := p.safeStop_safeStopped .halt m hd
    have frames : (p.safeStop .halt m).gather.1.Perm (.notice (.safeStop m .halt) :: q.lastFrames m) := by
      refine (Part.gather_perm _).trans ?_
      rw [Part.joining_of_left (st := .safeStop) (c := some .halt) hq (fun k hk => p.safeStop_motor_ne .halt hk)
        (by rw [p.safeStop_motor_self .halt m hd]; rfl), p.safeStop_outbox .halt m hd, hq.outbox]
      exact .refl _
    rw [stopped.state] at hj
    refine ⟨_, exec_of_after ht, rfl, ((p.safeStop_beside .halt m).handsOn hq hon).of_asServed,
      (stopped.handsOn hon).of_asServed, ?_, ?_, ⟨_, frames, hj⟩, fun hf hr => ?_⟩
    · rw [hon.motor m, p.safeStop_motor_self .halt m hd]
      rfl
    · obtain ⟨ms, w, ob, e⟩ := p.safeStop_frame .halt m
      change (p.safeStop .halt m).link = _
      rw [e]
      rfl
    · rw [Motor.lastFrames_nil hf, List.perm_singleton] at frames
      change Upstream.JoinedBy s.part.up v ((p.safeStop .halt m).gather.1 ++ _) at hj
      rw [frames] at hj
      exact Part.joinedBy_room hj h.taken h.numbered (by simp [FrameBody.isSample]) hr
  · rw [halt, Part.motorRequest_same Part.doHalt .ok h1 hn (fun e => by
      rcases hs with hs | hs | hs <;> exact absurd (hs.symm.trans e) (by simp)) fun u => by
        rcases hs with hs | hs | hs <;> simp only [Part.doHalt, state, hs]]
  · rw [halt, Part.motorRequest_same Part.doHalt .refusedState h1 hn (fun e => absurd (hs.symm.trans e) (by simp)) fun u => by
      simp only [Part.doHalt, state, hs]]
    rw [show (s.part.motor m).slot.state = .tripped from hs]
    rfl
  · rw [halt, Part.takeRequest_replied tag 3#8 _ (.locked, [6#8]) h1 fun u => ?_]
    rw [Part.motorCmd_locked (s.part.asServed u s.part.transferEnded.free) Part.doHalt hn (Bool.and_false _) hs, state, hs]
    rfl

/-! ## PARK -/

/-- R25, R26: the motor goes to READY, its gates off. -/
def Part.parked (p : Part) (m : Slot) : Part := (p.leaveRun m .ready none).modMotor m (·.allOff p.now)

theorem Part.parked_motor (p : Part) (m : Slot) : (p.parked m).motor m = ((p.motor m).leave .ready none).allOff p.now := by
  rw [Part.parked, modMotor_motor_self, p.leaveRun_motor]

theorem Part.parked_motor_ne (p : Part) {m k : Slot} (h : k ≠ m) : (p.parked m).motor k = p.motor k := by
  rw [Part.parked, modMotor_motor_ne _ _ h, leaveRun_motor_ne _ _ _ h]

theorem Part.parked_stopped (p : Part) (m : Slot) : p.Stopped (p.parked m) m := by
  have hleft := p.leaveRun_stopped m .ready none
  refine hleft.congr ((p.parked m).motor m).slot ((p.parked m).motor m).gates ((p.parked m).motor m).prot ?_
    (by rw [p.parked_motor]; rfl) (by rw [p.parked_motor]; rfl) hleft.list
  rw [p.leaveRun_motor, p.parked_motor]
  rfl

theorem Part.parked_beside (p : Part) (m : Slot) : p.Beside (p.parked m) m :=
  ⟨fun _ hk => p.parked_motor_ne hk, rfl, rfl, rfl, rfl, Store.Corrected.refl _⟩

theorem Part.parked_allOff (p : Part) (m : Slot) : ((p.parked m).motor m).gates.AllOff := by
  rw [p.parked_motor]
  exact GateStage.allOff_allOff _ _

/-- PARK raises no notice: what joins are the frames that it completes. -/
theorem Part.parked_joining {p : Part} (h : p.Quiet) (m : Slot) : (p.parked m).joining = (p.motor m).lastFrames m := by
  have ho : (p.parked m).outbox = [] := h.outbox
  rw [Part.joining_of_left (st := .ready) (c := none) h (fun k hk => p.parked_motor_ne hk) (by rw [p.parked_motor]; rfl), ho]
  rfl

/-- R11: the valley of this very instant is due. -/
theorem Part.valley_due {p : Part} {m : Slot} {c : Carrier} (hs : (p.motor m).slot.state = .running)
    (hc : (p.motor m).pace.carrier = some c) (hi : later c.valley c.len = p.now) : p.delay (.valley m) = some 0 := by
  simp only [Part.delay, Part.valleyDelay, hs, hc, hi, ticksFrom, BitVec.sub_self]
  rfl

theorem Schedules.handOn_period (s : Schedules) : s.handOn.latest.map (·.period) = s.latest.map (·.period) := by
  rw [Schedules.handOn, Option.map_map]
  refine congrFun (congrArg Option.map (funext fun sc => ?_)) _
  rw [Function.comp_apply]
  split <;> rfl

theorem Schedules.mapReqs_period (s : Schedules) (f : Request → Request) :
    (s.mapReqs f).latest.map (·.period) = s.latest.map (·.period) := by
  rw [Schedules.mapReqs, Option.map_map]
  rfl

theorem Part.doPark_running {p : Part} {m : Slot} (h : (p.motor m).slot.state = .running) :
    p.doPark m = (.ok, p.modSlot m fun sl => { sl with park := true }) := by
  simp only [Part.doPark, h]

theorem Part.doPark_startPending {p : Part} {m : Slot} (h : (p.motor m).slot.state = .startPending) :
    p.doPark m = (.ok, p.parked m) := by
  simp only [Part.doPark, h]
  rfl

/-- Settles O52: both ways a park ends in `parked`. -/
theorem parkIsTakenAndCompletes : Obligations.ParkIsTakenAndCompletes := by
  refine ⟨fun s tag n m h hn => ?_, fun s m c he hq hs hp hc hi => ?_⟩
  · intro q
    have park : exec (.park tag n) s =
        .next { s with part := s.part.takeRequest tag 3#8 fun d r => r.motorCmd n d false Part.doPark } := rfl
    refine ⟨fun h1 hs => ?_, fun hs => ?_⟩
    · rw [park, Part.motorRequest_slot Part.doPark .ok { q with slot := { q.slot with park := true } } h1 hn
        (fun e => absurd (hs.symm.trans e) (by simp))
          (fun u => Part.doPark_running (hs : ((s.part.asServed u _).motor m).slot.state = .running)) rfl]
      simp only [hs]
      rfl
    · obtain ⟨u, v, ht, hj⟩ := Part.motorRequest_joined tag Part.doPark .ok (fun x => x.parked m) h hn
        (fun e => absurd (hs.symm.trans e) (by simp))
        (fun u => Part.doPark_startPending (hs : ((s.part.asServed u _).motor m).slot.state = .startPending)) (fun _ => rfl)
      let p := s.part.asServed u s.part.transferEnded.free
      have hq : p.Quiet := h.quiet.asServed _ _
      have hon := (p.parked m).gather_handsOn v
      have frames : (p.parked m).gather.1.Perm (q.lastFrames m) :=
        (Part.gather_perm _).trans (by rw [Part.parked_joining hq]; exact .refl _)
      rw [show ((p.parked m).motor m).slot.state = .ready by rw [p.parked_motor]; rfl] at hj
      refine ⟨_, exec_of_after ht, rfl, ((p.parked_beside m).handsOn hq hon).of_asServed, ?_,
        ((p.parked_stopped m).handsOn hon).of_asServed, ?_, ?_, rfl, ⟨_, frames, hj⟩, fun h1 hf => ?_⟩
      · rw [hon.motor m, p.parked_motor]
        rfl
      · rw [hon.motor m]
        exact p.parked_allOff m
      · rw [hon.motor m, p.parked_motor]
        rfl
      · rw [Motor.lastFrames_nil hf, List.perm_nil] at frames
        change Upstream.JoinedBy s.part.up v ((p.parked m).gather.1 ++ _) at hj
        rw [frames] at hj
        exact Part.joinedBy_room hj h.taken h.numbered (by simp [FrameBody.isSample]) h1.room
  · have hwork : s.part.openNext m = s.part.parked m := by simp only [Part.openNext, hc, hp, if_true]; rfl
    have ht : exec (.valley m) s = .next { s with part := (s.part.parked m).settle } := by
      rw [exec_eq_after, s.part.after_of_timedWork rfl, Part.takeTimed_now _ _ _ he (Part.valley_due hs hc hi) rfl, hwork]
    have hon := (s.part.parked m).settle_handsOn
    refine ⟨_, ht, rfl, (s.part.parked_beside m).handsOn hq hon, ?_, (s.part.parked_stopped m).handsOn hon, ?_, ?_, ?_, ?_⟩
    · rw [hon.motor m, s.part.parked_motor]
      rfl
    · rw [hon.motor m]
      exact s.part.parked_allOff m
    · rw [hon.motor m, s.part.parked_motor]
      rfl
    · rw [hon.motor m, s.part.parked_motor]
      rfl
    · rw [hon.motor m, s.part.parked_motor]
      exact (Schedules.handOn_period _).trans (Schedules.mapReqs_period _ _)

end Sys2Proof.Machine
end

section
/-! Trips (R31, R142 to R144), and the comparator inputs (R140). -/

namespace Sys2Proof.Machine

/-! ## The upstream side at the end of a command -/

theorem Upstream.join_slots (u : Upstream) (b : FrameBody) : (u.join b).slots = u.slots := by
  have count : (u.countBuilt b).slots = u.slots := by cases b <;> rfl
  have lose : ∀ v : Upstream, (v.lose b).slots = v.slots := fun v => by cases b <;> rfl
  unfold Upstream.join
  simp only
  split
  · exact count
  · split
    · exact count
    · exact (lose _).trans count

theorem Part.settle_slots (x : Part) : x.settle.up.slots = x.up.slots := by
  have fold : ∀ (l : List FrameBody) (u : Upstream), (l.foldl Upstream.join u).slots = u.slots := by
    intro l
    induction l with
    | nil => exact fun _ => rfl
    | cons b l ih => exact fun u => (ih _).trans (u.join_slots b)
  rw [Part.settle, Part.joinAll_up]
  exact fold _ _

/-- R132: after its report the motor's fault slot holds the motor's record. -/
theorem Part.reportFault_slot {x : Part} {m : Slot} {r : FaultRecord} (h : (x.motor m).slot.fault = some r) :
    (x.reportFault m).up.slots.get m = some r := by
  simp only [Part.reportFault, h, Part.fillFaultSlot, Part.modUp_up, Triple.get_set_self]

/-- R145: one motor TRIPPED or LOCKED_OUT asserts the fault output. -/
theorem Part.faultOut_of_motor {t : Part} (m : Slot) (h : (t.motor m).slot.state = .tripped ∨ (t.motor m).slot.state = .lockedOut) :
    t.faultOut = true := by
  have hf : (t.motor m).faulted = true := by
    rcases h with h | h <;> simp [Motor.faulted, h]
  simp only [Part.faultOut, Triple.toList, List.any_cons, List.any_nil, Bool.or_false, Bool.or_eq_true]
  cases m with
  | i0 => exact .inl hf
  | i1 => exact .inr (.inl hf)
  | i2 => exact .inr (.inr hf)

/-! ## A first trip (R31, R143) -/

/-- R31, R143: what a trip event does to a driven motor. -/
def Part.firstTrip (p : Part) (e : TripEvent) (m : Slot) : Part :=
  ((p.leaveRun m .tripped none).modMotor m (·.tripped e p.now)).reportFault m

theorem Part.trip_driven (p : Part) (e : TripEvent) (m : Slot)
    (h : (p.motor m).slot.state = .running ∨ (p.motor m).slot.state = .startPending ∧ e.cause = .ocPin) :
    p.trip e m = p.firstTrip e m := by
  rcases h with h | ⟨h, hc⟩
  · exact p.trip_running e m h
  · simp only [Part.trip, h, hc, if_true]
    rfl

theorem Part.firstTrip_motor (p : Part) (e : TripEvent) (m : Slot) :
    (p.firstTrip e m).motor m = ((p.motor m).leave .tripped none).tripped e p.now := by
  rw [Part.firstTrip, reportFault_motor, modMotor_motor_self, p.leaveRun_motor]

/-- A trip leaves all but its motor, the waiting list and the fault slots as it is. -/
theorem Part.trip_frame (p : Part) (e : TripEvent) (m : Slot) : ∃ ms w up,
    p.trip e m = { p with motors := ms, sampler := { p.sampler with waiting := w }, up := up } := by
  have report : ∀ x : Part, ∃ up, x.reportFault m = { x with up := up } := by
    intro x
    unfold Part.reportFault
    split <;> exact ⟨_, rfl⟩
  have first : ∃ ms w up, p.firstTrip e m = { p with motors := ms, sampler := { p.sampler with waiting := w }, up := up } := by
    obtain ⟨up, hu⟩ := report ((p.leaveRun m .tripped none).modMotor m (·.tripped e p.now))
    exact ⟨_, _, up, hu⟩
  have inPlace : ∀ f : Motor → Motor, ∃ ms w up,
      (p.modMotor m f).reportFault m = { p with motors := ms, sampler := { p.sampler with waiting := w }, up := up } := by
    intro f
    obtain ⟨up, hu⟩ := report (p.modMotor m f)
    exact ⟨_, _, up, hu⟩
  unfold Part.trip
  split
  · exact first
  · split
    · exact first
    · exact ⟨_, _, _, rfl⟩
  · split
    · exact inPlace _
    · exact ⟨_, _, _, rfl⟩
  · split
    · exact inPlace _
    · exact ⟨_, _, _, rfl⟩
  all_goals exact ⟨_, _, _, rfl⟩

theorem Part.trip_beside (p : Part) (e : TripEvent) (m : Slot) : p.Beside (p.trip e m) m := by
  refine { others := fun k hk => p.trip_motor_ne e hk, tb := ?_, en := ?_, bus := ?_, cause := ?_, store := ?_ }
  all_goals
    obtain ⟨ms, w, up, h⟩ := p.trip_frame e m
    rw [h]
  exact Store.Corrected.refl _

/-- R31, R143: a trip changes the motor's slot, its gates and its trip counts. -/
theorem Motor.tripped_fields (q : Motor) (e : TripEvent) (now : Tick) : ∃ g, q.tripped e now = { q with
    slot := { q.slot with state := .tripped, stopCause := none, fault := some (e.record now) }
    gates := g
    prot := q.prot.countTrip e.cause } := by
  simp only [Motor.tripped, Motor.tripAction]
  split <;> exact ⟨_, rfl⟩

theorem Motor.tripped_holds (q : Motor) (e : TripEvent) (now : Tick) :
    (q.tripped e now).gates.Holds (if e.cause = .ocPin then .allOff else (q.slot.copies.map (·.trip)).getD .allOff) := by
  simp only [Motor.tripped, Motor.tripAction]
  split
  · exact GateStage.allOff_allOff _ _
  · exact GateStage.action_holds _ _ _ _

theorem Part.firstTrip_stopped (p : Part) (e : TripEvent) (m : Slot) : p.Stopped (p.firstTrip e m) m := by
  have hleft := p.leaveRun_stopped m .tripped none
  have hw : (p.firstTrip e m).sampler = (p.leaveRun m .tripped none).sampler := by
    unfold Part.firstTrip Part.reportFault
    split <;> rfl
  obtain ⟨g, hg⟩ := ((p.motor m).leave .tripped none).tripped_fields e p.now
  refine hleft.congr ((p.firstTrip e m).motor m).slot ((p.firstTrip e m).motor m).gates ((p.firstTrip e m).motor m).prot ?_
    (by rw [p.firstTrip_motor, hg]; rfl) (by rw [p.firstTrip_motor, hg]; rfl) (by rw [hw]; exact hleft.list)
  rw [p.leaveRun_motor, p.firstTrip_motor, hg]

/-- R31, R132, R143, R145: a driven motor after a trip event and the end of the command. -/
theorem Part.trip_trippedBy (p : Part) (e : TripEvent) (m : Slot)
    (h : (p.motor m).slot.state = .running ∨ (p.motor m).slot.state = .startPending ∧ e.cause = .ocPin) :
    p.TrippedBy (p.trip e m).settle m e := by
  rw [p.trip_driven e m h]
  have hon := (p.firstTrip e m).settle_handsOn
  have hm : ((p.firstTrip e m).settle.motor m) = _ := (hon.motor m).trans (by rw [p.firstTrip_motor])
  obtain ⟨g, hg⟩ := ((p.motor m).leave .tripped none).tripped_fields e p.now
  exact
    { state := by rw [hm]; rfl
      stopCause := by rw [hm]; rfl
      copies := by rw [hm, hg]; rfl
      record := by rw [hm]; rfl
      slot := by
        rw [hm, Part.settle_slots]
        refine Part.reportFault_slot ?_
        rw [modMotor_motor_self]
        rfl
      gates := by
        rw [hm]
        exact Motor.tripped_holds _ _ _
      output := Part.faultOut_of_motor m (.inl (by rw [hm]; rfl))
      stopped := (p.firstTrip_stopped e m).handsOn hon }

/-- The counts that a first trip raises. -/
theorem Part.trip_prot (p : Part) (e : TripEvent) (m : Slot)
    (h : (p.motor m).slot.state = .running ∨ (p.motor m).slot.state = .startPending ∧ e.cause = .ocPin) :
    ((p.trip e m).settle.motor m).prot = (p.motor m).prot.countTrip e.cause := by
  obtain ⟨g, hg⟩ := ((p.motor m).leave .tripped none).tripped_fields e p.now
  rw [p.trip_driven e m h, (Part.settle_handsOn _).motor m, p.firstTrip_motor, hg]
  rfl

/-! ## The part before: what a motor's stop and trip look at -/

theorem Part.Stopped.of_motor {p x t : Part} {m : Slot} (h : x.Stopped t m) (hs : (x.motor m).scheds = (p.motor m).scheds)
    (hc : (x.motor m).samp = (p.motor m).samp) : p.Stopped t m :=
  { h with
    requests := hs ▸ h.requests
    missed := by
      have hm := h.missed
      rw [← Schedules.unfrozen_eq_count] at hm ⊢
      rwa [hs, hc] at hm }

theorem Part.SafeStopped.of_motor {p x t : Part} {m : Slot} {c : StopCause} (h : x.SafeStopped t m c)
    (hs : (x.motor m).scheds = (p.motor m).scheds) (hc : (x.motor m).samp = (p.motor m).samp)
    (hk : (x.motor m).slot.copies = (p.motor m).slot.copies) : p.SafeStopped t m c :=
  ⟨h.state, h.stopCause, h.copies.trans hk, hk ▸ h.gates, h.stopped.of_motor hs hc⟩

theorem Part.TrippedBy.of_motor {p x t : Part} {m : Slot} {e : TripEvent} (h : x.TrippedBy t m e)
    (hs : (x.motor m).scheds = (p.motor m).scheds) (hc : (x.motor m).samp = (p.motor m).samp)
    (hk : (x.motor m).slot.copies = (p.motor m).slot.copies) (hn : x.now = p.now) : p.TrippedBy t m e :=
  ⟨h.state, h.stopCause, h.copies.trans hk, hn ▸ h.record, h.slot, hk ▸ h.gates, h.output, h.stopped.of_motor hs hc⟩

theorem Part.Beside.of_motor {p t : Part} {m : Slot} {f : Motor → Motor} (h : (p.modMotor m f).Beside t m) : p.Beside t m :=
  ⟨fun k hk => (h.others k hk).trans (Part.modMotor_motor_ne p f hk), h.tb, h.en, h.bus, h.cause, h.store⟩

theorem Part.Beside.of_store {p t : Part} {m : Slot} {st : Store} (h : ({ p with store := st } : Part).Beside t m)
    (hc : p.store.Corrected st) : p.Beside t m := ⟨h.others, h.tb, h.en, h.bus, h.cause, hc.trans h.store⟩

theorem Part.Quiet.modMotor {p : Part} (h : p.Quiet) {m : Slot} {f : Motor → Motor}
    (hf : (f (p.motor m)).scheds = (p.motor m).scheds) :
    (p.modMotor m f).Quiet := by
  refine ⟨h.outbox, fun k => ?_⟩
  by_cases hk : k = m
  · rw [hk, modMotor_motor_self, hf]
    exact h.handed m
  · rw [modMotor_motor_ne _ _ hk]
    exact h.handed k

/-! ## The comparator inputs (R140) -/

/-- Settles O41: the input's level and count first, then the trip event in the motor's state. -/
theorem ocPinEdgesAreJudged : Obligations.OcPinEdgesAreJudged := by
  intro s m he q prot
  let p := s.part.modMotor m fun q => { q with prot := { q.prot with pinHigh := false, edges := bump q.prot.edges } }
  let e := s.part.ocEvent m
  have hpm : p.motor m = { q with prot := prot } := Part.modMotor_motor_self _ _ _
  refine ⟨?_, fun hl => ?_, fun hq hh => ?_⟩
  · refine exec_of_after ?_
    simp only [Part.after, exec, execOcPinRise, he, if_true]
  · refine (exec_of_after (t := s.part) ?_)
    have : (s.part.motor m).prot.pinHigh = false := hl
    simp only [Part.after, exec, execOcPinFall, this, Bool.and_false, Bool.false_eq_true, if_false]
  · have hafter : s.part.after (.ocPinFall m) = (p.trip e m).settle := by
      have : (s.part.motor m).prot.pinHigh = true := hh
      simp only [Part.after, exec, execOcPinFall, he, this, Bool.and_self, if_true]
      rfl
    have hpq : p.Quiet := hq.modMotor rfl
    have hon := (p.trip e m).settle_handsOn
    -- a motor that trips where it stands keeps its schedules, which were handed on before
    have inPlace : ∀ f : Motor → Motor, p.trip e m = (p.modMotor m f).reportFault m →
        (f (p.motor m)).scheds = (p.motor m).scheds → (p.trip e m).settle.motor m = f (p.motor m) := by
      intro f hf hs
      have hm : (p.trip e m).motor m = f (p.motor m) := by rw [hf, Part.reportFault_motor, Part.modMotor_motor_self]
      rw [hon.motor_same (k := m) (by rw [hm, hs]; exact hpq.handed m), hm]
    have slot : ∀ (f : Motor → Motor) (r : FaultRecord), p.trip e m = (p.modMotor m f).reportFault m →
        (f (p.motor m)).slot.fault = some r → (p.trip e m).settle.up.slots.get m = some r := by
      intro f r hf hr
      rw [Part.settle_slots, hf]
      exact Part.reportFault_slot (by rw [Part.modMotor_motor_self, hr])
    refine ⟨_, exec_of_after hafter, rfl, ((p.trip_beside e m).handsOn hpq hon).of_motor, fun hd => ?_, fun hs => ?_,
      fun r hs hr => ?_, fun hs => ?_⟩
    · have hd' : (p.motor m).slot.state = .running ∨ (p.motor m).slot.state = .startPending ∧ e.cause = .ocPin := by
        rw [hpm]
        exact hd.imp_right fun h => ⟨h, rfl⟩
      have hev : e = ⟨.ocPin, if q.slot.state = .running then q.lastPeriod else none, 0, none⟩ := by
        simp only [e, Part.ocEvent, Part.running, beq_iff_eq]
        rfl
      rw [← hev]
      refine ⟨(p.trip_trippedBy e m hd').of_motor (by rw [hpm]) (by rw [hpm]) (by rw [hpm]) rfl, ?_⟩
      rw [p.trip_prot e m hd', hpm]
      rfl
    · have hev : e = ⟨.ocPin, none, 0, none⟩ := by
        have : (s.part.motor m).slot.state = .safeStop := hs
        simp [e, Part.ocEvent, Part.running, this]
      have htrip : p.trip e m = (p.modMotor m (·.tripped e p.now)).reportFault m := by
        have : (p.motor m).slot.state = .safeStop := by rw [hpm]; exact hs
        simp only [Part.trip, this, hev, if_true]
      obtain ⟨g, hg⟩ := (p.motor m).tripped_fields e p.now
      have hm := inPlace _ htrip (by rw [hg])
      intro record
      refine ⟨?_, ?_, ?_, Part.faultOut_of_motor m (.inl ?_)⟩
      · rw [hm, hg, hpm, hev]
        rfl
      · rw [hm]
        exact Motor.tripped_ocPin _ _ _ rfl
      · refine slot _ record htrip ?_
        rw [hev]
        rfl
      · rw [hm]
        rfl
    · have hev : e = ⟨.ocPin, none, 0, none⟩ := by
        have : (s.part.motor m).slot.state = .tripped := hs
        simp [e, Part.ocEvent, Part.running, this]
      have htrip : p.trip e m = (p.modMotor m (·.lockedOut e p.now)).reportFault m := by
        have : (p.motor m).slot.state = .tripped := by rw [hpm]; exact hs
        simp only [Part.trip, this, hev, if_true]
      have hm := inPlace _ htrip rfl
      intro record
      have hfault : ((p.motor m).lockedOut e p.now).slot.fault = some record := by
        have hr' : (p.motor m).slot.fault = some r := by rw [hpm]; exact hr
        simp only [Motor.lockedOut, Motor.allOff, Motor.modGates_slot, hr', Option.map_some, hev]
        rfl
      refine ⟨?_, ?_, slot _ record htrip hfault, Part.faultOut_of_motor m (.inr ?_)⟩
      · rw [← hfault, hm, hpm, hev]
        rfl
      · rw [hm]
        exact GateStage.allOff_allOff _ _
      · rw [hm]
        rfl
    · have htrip : p.trip e m = p := by
        have : (p.motor m).slot.state = q.slot.state := by rw [hpm]
        rcases hs with hs | hs | hs <;> simp only [Part.trip, this, hs]
      rw [htrip, Part.settle_quiet _ hpq]
      rfl

end Sys2Proof.Machine
end

section
/-! The stall of the commutation sequencer (R78, R85) and the setpoint queue at a valley (R40 to R43). -/

namespace Sys2Proof.Machine

/-! ## Reads of words that hold data -/

/-- R142, R157: words read for a motor that all hold data: their fields, and the store corrected at most. -/
theorem Part.readFor_data {p : Part} (m : Slot) {pos : Fin 82} {l : List (Fin 82)} (h : p.store.Readable pos)
    (hl : p.store.ReadableAll l) : ∃ st, p.store.Corrected st ∧
      p.readFor m pos = (some (p.store.word pos).fields, { p with store := st }) ∧ st.ReadableAll l := by
  obtain ⟨st, hc, hr, hw⟩ := p.readFor_readable m pos h
  refine ⟨st, hc, hr, fun x hx => ?_⟩
  have hv : (st.word x).valid = true := (hc.valid x).trans (hl x hx).1
  exact ⟨hv, hw l (fun y hy _ => (hl y hy).2) x hx hv⟩

theorem Part.Quiet.withStore {p : Part} (h : p.Quiet) (st : Store) : ({ p with store := st } : Part).Quiet := ⟨h.outbox, h.handed⟩

theorem ticksFrom_self (t : Tick) : ticksFrom t t = 0 := by
  rw [ticksFrom, BitVec.sub_self]
  rfl

/-! ## Stalls -/

/-- R78, R85: a STALL trip of a RUNNING motor, with the store corrected at most before it. -/
theorem Part.stall_trips {p : Part} (m : Slot) (step : Fin 6) (count : Nat) {st : Store} (hc : p.store.Corrected st)
    (hs : (p.motor m).slot.state = .running) (hq : p.Quiet) :
    let t := (({ p with store := st } : Part).stall m step count).settle
    p.Beside t m ∧ p.TrippedBy t m ⟨.stall, (p.motor m).lastPeriod, count, some (rolesOf step).floating⟩ ∧
      (t.motor m).prot.stallTrips = bump (p.motor m).prot.stallTrips := by
  let x : Part := { p with store := st }
  let e : TripEvent := ⟨.stall, (p.motor m).lastPeriod, count, some (rolesOf step).floating⟩
  have hprot : ((x.trip e m).settle.motor m).prot = (p.motor m).prot.countTrip .stall := x.trip_prot e m (.inl hs)
  exact ⟨((x.trip_beside e m).handsOn (hq.withStore st) (Part.settle_handsOn _)).of_store hc,
    (x.trip_trippedBy e m (.inl hs)).of_motor rfl rfl rfl rfl, congrArg MotorProt.stallTrips hprot⟩

/-- Settles O31: the count is judged before the commutation, and the trip takes its place. -/
theorem stallTripsTheMotor : Obligations.StallTripsTheMotor := by
  refine ⟨fun s m r confirm hold late he hq _ hs hr hd hsched hread hlimit => ?_,
    fun s m r se tRef tStep f lost limit he hq _ hs hr hd ht hse hsearch hlimit => ?_⟩
  · have hdelay : s.part.delay (.rampCommutation m) = some 0 := by
      simp [Part.delay, Part.commDelay, hs, hr, hsched, ticksFrom_self]
    obtain ⟨st, hc, h12, hl⟩ := s.part.readFor_data m (pos := (RecordId.profile m).pos 12)
      (l := [(RecordId.profile m).pos 13]) (hread _ (by simp))
      fun x hx => hread x (List.mem_cons_of_mem _ hx)
    obtain ⟨st', hc', h13, -⟩ := ({ s.part with store := st } : Part).readFor_data m
      (pos := (RecordId.profile m).pos 13) (l := []) (hl _ (by simp)) (by simp [Store.ReadableAll])
    have hfields : field (st.word ((RecordId.profile m).pos 13)).fields 1 ≤ hold + 1 := by rw [hc.fields]; exact hlimit
    have hwork : s.part.rampDue m = ({ s.part with store := st' } : Part).stall m r.step (hold + 1) := by
      simp only [Part.rampDue, hr, hd, h12]
      refine (if_pos rfl).trans ?_
      simp only [Part.rampAtHold, h13, hfields, if_true]
    have hafter : s.part.after (.rampCommutation m) = (({ s.part with store := st' } : Part).stall m r.step (hold + 1)).settle := by
      rw [s.part.after_of_timedWork rfl, Part.takeTimed_now _ _ _ he hdelay rfl, hwork]
    exact ⟨_, exec_of_after hafter, Part.stall_trips m r.step (hold + 1) (hc.trans hc') hs hq⟩
  · have hdelay : s.part.delay (.searchTimeout m) = some 0 := by
      simp [Part.delay, Part.timeoutDelay, hs, hr, ht, hse, hsearch, ticksFrom_self]
    have hwork : s.part.timeoutDue m = s.part.stall m r.step limit := by
      simp only [Part.timeoutDue, hr, hd, hlimit, if_true]
    have hafter : s.part.after (.searchTimeout m) = (s.part.stall m r.step limit).settle := by
      rw [s.part.after_of_timedWork rfl, Part.takeTimed_now _ _ _ he hdelay rfl, hwork]
    exact ⟨_, exec_of_after hafter, Part.stall_trips m r.step limit (Store.Corrected.refl _) hs hq⟩

/-! ## The setpoint queue (R40 to R43) -/

/-- R40: the verdict on a record, from its distance. -/
theorem SetRec.verdict_none {r : SetRec} (period : Byte) (h : r.applyAt = none) : r.verdict period = .take := by
  simp only [SetRec.verdict, h]

theorem SetRec.verdict_take {r : SetRec} {a period : Byte} (h : r.applyAt = some a)
    (hd : (a.toNat + 256 - period.toNat) % 256 = 0) : r.verdict period = .take := by
  have : a = period := by bv_omega
  simp only [SetRec.verdict, h, this, if_true]

theorem SetRec.verdict_wait {r : SetRec} {a period : Byte} (h : r.applyAt = some a)
    (h1 : 1 ≤ (a.toNat + 256 - period.toNat) % 256) (h2 : (a.toNat + 256 - period.toNat) % 256 ≤ 127) :
    r.verdict period = .wait := by
  have hne : a ≠ period := by
    rintro rfl
    omega
  have hle : (a - period).toNat ≤ 127 := by bv_omega
  simp only [SetRec.verdict, h, hne, hle, if_false, if_true]

theorem SetRec.verdict_stale {r : SetRec} {a period : Byte} (h : r.applyAt = some a)
    (hd : 128 ≤ (a.toNat + 256 - period.toNat) % 256) : r.verdict period = .stale := by
  have hne : a ≠ period := by
    rintro rfl
    omega
  have hgt : ¬(a - period).toNat ≤ 127 := by bv_omega
  simp only [SetRec.verdict, h, hne, hgt, if_false]

theorem SetQueue.decide_take (q : SetQueue) {period : Byte} {r : SetRec} (l : List SetRec) (h : r.verdict period = .take) :
    q.decide period (r :: l) = (.new, { q with recs := l, applied := ⟨r.tag, r.duty.map saturate⟩, starved := 0 }) := by
  simp only [SetQueue.decide, h]

theorem SetQueue.decide_wait (q : SetQueue) {period : Byte} {r : SetRec} (l : List SetRec) (h : r.verdict period = .wait) :
    q.decide period (r :: l) = (.waiting, { q with recs := r :: l }) := by
  simp only [SetQueue.decide, h]

theorem SetQueue.decide_stale (q : SetQueue) {period : Byte} {r : SetRec} (l : List SetRec) (h : r.verdict period = .stale) :
    q.decide period (r :: l) = SetQueue.decide { q with stales := bump q.stales, staleFlag := true } period l := by
  rw [SetQueue.decide, h]

/-- R43: a queue found empty, or emptied of stale records, has starved one valley more. -/
theorem SetQueue.decide_held (l : List SetRec) (q : SetQueue) (period : Byte) (h : (q.decide period l).1 = .held) :
    (q.decide period l).2.starved = min (q.starved + 1) 255 ∧
      (q.decide period l).2.starvedValleys = bump q.starvedValleys := by
  induction l generalizing q with
  | nil => exact ⟨rfl, rfl⟩
  | cons r l ih =>
    cases hv : r.verdict period with
    | take => simp [q.decide_take l hv] at h
    | wait => simp [q.decide_wait l hv] at h
    | stale =>
      rw [q.decide_stale l hv] at h ⊢
      exact ih _ h

/-! ## A valley that stops the motor (R43) -/

/-- The only frame of a command joins a queue with room. -/
theorem Part.settle_up_of_notice {x : Part} {n : Notice} (h : x.joining = [.notice n]) (hr : x.up.queue.length < 8) :
    x.settle.up = x.up.append (.notice n) := by
  have hg : x.gather.1 = [.notice n] := List.perm_singleton.1 (h ▸ x.gather_perm)
  have hup : x.gather.2.up = x.up := rfl
  rw [Part.settle, Part.joinAll_up, hg, Part.modUp_up, hup, List.foldl_cons, List.foldl_nil, Upstream.join_of_room rfl hr]

/-- R27, R28, R43: a starved motor is stopped. The valley has moved its setpoint queue, a first valley its slot too, and
the read of HOLD_LIMIT may have corrected the store. -/
theorem Part.starved_stops {p : Part} (m : Slot) (f : Motor → Motor) {st : Store} (hc : p.store.Corrected st) (hq : p.Quiet)
    (hs : (f (p.motor m)).slot.state = .running) (hk : (f (p.motor m)).slot.copies = (p.motor m).slot.copies)
    (hsc : (f (p.motor m)).scheds = (p.motor m).scheds) (hsa : (f (p.motor m)).samp = (p.motor m).samp) :
    let t := (({ p.modMotor m f with store := st } : Part).safeStop .starved m).settle
    p.Beside t m ∧ p.SafeStopped t m .starved ∧ (t.motor m).setq = (f (p.motor m)).setq.flush ∧
      (t.motor m).scheds.latest.map (·.period) = (p.motor m).scheds.latest.map (·.period) ∧
      ((p.motor m).NothingInFlight → p.up.queue.length < 8 → t.up = p.up.append (.notice (.safeStop m .starved))) := by
  let y : Part := { p.modMotor m f with store := st }
  have hym : y.motor m = f (p.motor m) := modMotor_motor_self _ _ _
  have hyq : y.Quiet := (hq.modMotor hsc).withStore st
  have hd : (y.motor m).slot.state = .running ∨ (y.motor m).slot.state = .startPending := .inl (by rw [hym, hs])
  have hon := (y.safeStop .starved m).settle_handsOn
  have hm := (hon.motor m).trans (by rw [y.safeStop_motor_self .starved m hd, hym])
  have hjoin : (y.safeStop .starved m).joining = .notice (.safeStop m .starved) :: (f (p.motor m)).lastFrames m := by
    rw [Part.joining_of_left (st := .safeStop) (c := some .starved) hyq (fun k hk => y.safeStop_motor_ne .starved hk)
      (by rw [y.safeStop_motor_self .starved m hd]; rfl), y.safeStop_outbox .starved m hd, hyq.outbox, hym]
    rfl
  refine ⟨((y.safeStop_beside .starved m).handsOn hyq hon |>.of_store (p := p.modMotor m f) hc).of_motor,
    ((y.safeStop_safeStopped .starved m hd).handsOn hon).of_motor (by rw [hym, hsc]) (by rw [hym, hsa]) (by rw [hym, hk]),
    by rw [hm]; rfl, ?_, fun hf hr => ?_⟩
  · rw [hm, ← hsc]
    exact (Schedules.handOn_period _).trans (Schedules.mapReqs_period _ _)
  · have hup : (y.safeStop .starved m).up = p.up := by
      obtain ⟨ms, w, ob, e⟩ := y.safeStop_frame .starved m
      rw [e]
      rfl
    have hnone : (f (p.motor m)).lastFrames m = [] := Motor.lastFrames_nil (by rw [Motor.NothingInFlight, hsc]; exact hf) m
    rw [hnone] at hjoin
    rw [← hup]
    exact Part.settle_up_of_notice hjoin (by rw [hup]; exact hr)

/-- R43: the work of a valley that finds its motor starved up to HOLD_LIMIT. -/
theorem Part.openPeriod_starved {p : Part} {m : Slot} {period : Byte} (h : p.store.Readable ((RecordId.profile m).pos 15))
    (hh : ((p.motor m).setq.decide period (p.motor m).setq.recs).1 = .held)
    (hl : field (p.store.profileWord m 15) 0 ≤ (p.motor m).setq.starved + 1) (hb : field (p.store.profileWord m 15) 0 ≤ 255) :
    ∃ st, p.store.Corrected st ∧ p.openPeriod m period =
      ({ p.modMotor m fun q => { q with setq := ((p.motor m).setq.decide period (p.motor m).setq.recs).2 } with
        store := st } : Part).safeStop .starved m := by
  let x := p.modMotor m fun q => { q with setq := ((p.motor m).setq.decide period (p.motor m).setq.recs).2 }
  have hxm : x.motor m = { p.motor m with setq := ((p.motor m).setq.decide period (p.motor m).setq.recs).2 } :=
    modMotor_motor_self _ _ _
  obtain ⟨st, hc, hr, -⟩ := x.readFor_data m (l := []) h (by simp [Store.ReadableAll])
  refine ⟨st, hc, ?_⟩
  have hstarved : field (x.store.word ((RecordId.profile m).pos 15)).fields 0 ≤ (x.motor m).setq.starved := by
    rw [hxm, (SetQueue.decide_held _ _ period hh).1]
    exact Nat.le_min.2 ⟨hl, hb⟩
  have hset : p.valleySetpoint m period = (none, ({ x with store := st } : Part).safeStop .starved m) := by
    simp only [Part.valleySetpoint, hh, if_true]
    rw [show p.modMotor m _ = x from rfl, hr]
    exact if_pos hstarved
  simp only [Part.openPeriod, hset]
  rfl

/-- R10: the first valley of this very instant is due. -/
theorem Part.firstValley_due {p : Part} {m : Slot} {w : StartWait} (hs : (p.motor m).slot.state = .startPending)
    (hw : (p.motor m).slot.start = some w) (ht : w.taken = false)
    (ho : (p.tb.endDue = false ∧ p.tb.pos = w.offset ∧ w.offset < p.tb.len) ∨ (p.tb.endDue = true ∧ w.offset = 0)) :
    p.delay (.firstValley m) = some 0 := by
  simp only [Part.delay, Part.firstValleyDelay, hs, hw, ht, Bool.false_eq_true, if_false]
  rcases ho with ⟨he, hp, hl⟩ | ⟨he, hz⟩
  · by_cases hz : w.offset = 0
    · simp [Timebase.untilOffset, he, hp, hz]
    · simp [Timebase.untilOffset, Timebase.until, he, hp, hl, hz]
  · simp [Timebase.untilOffset, Timebase.untilEnd, he, hz]

/-- Settles O26: the queue's verdict record by record, and the stop of a valley that it starves. -/
theorem setpointQueueAtTheValley : Obligations.SetpointQueueAtTheValley := by
  refine ⟨fun q period => rfl, fun q period r l => ?_, fun s m period c he hq hc hread hheld hlimit hbyte => ?_⟩
  · intro taken
    have take : r.verdict period = .take → taken := fun hv => q.decide_take l hv
    refine ⟨fun hn => take (SetRec.verdict_none period hn), fun a ha => ?_⟩
    exact ⟨fun hd => take (SetRec.verdict_take ha hd), fun h1 h2 => q.decide_wait l (SetRec.verdict_wait ha h1 h2),
      fun hd => q.decide_stale l (SetRec.verdict_stale ha hd)⟩
  · have hdec := (SetQueue.decide_held _ _ period hheld)
    have fields : ∀ {t : Part}, (t.motor m).setq = ((s.part.motor m).setq.decide period (s.part.motor m).setq.recs).2.flush →
        (t.motor m).setq.starvedValleys = bump (s.part.motor m).setq.starvedValleys ∧
          (t.motor m).setq.stales = ((s.part.motor m).setq.decide period (s.part.motor m).setq.recs).2.stales := fun ht => by
      rw [ht]
      exact ⟨hdec.2, rfl⟩
    rcases hc with ⟨rfl, hs, hp, k, hk, hi, rfl⟩ | ⟨rfl, hs, rfl, w, hw, ht, ho⟩
    · obtain ⟨st, hcor, hopen⟩ := Part.openPeriod_starved hread hheld hlimit hbyte
      have hafter : s.part.after (.valley m) = (s.part.openPeriod m (k.period + 1#8)).settle := by
        rw [s.part.after_of_timedWork rfl, Part.takeTimed_now _ _ _ he (Part.valley_due hs hk hi) rfl]
        simp only [Part.openNext, hk, hp, Bool.false_eq_true, if_false]
      obtain ⟨h1, h2, h3, h4, h5⟩ := Part.starved_stops (p := s.part) m
        (fun q => { q with setq := ((s.part.motor m).setq.decide (k.period + 1#8) (s.part.motor m).setq.recs).2 }) hcor hq hs
        rfl rfl rfl
      exact ⟨_, exec_of_after (hafter.trans (congrArg Part.settle hopen)), rfl, h1, h2, (fields h3).1, (fields h3).2, h4, h5⟩
    · let first := fun (q : Motor) => { q with slot := { q.slot with state := .running, start := none, park := false } }
      let x := s.part.modMotor m first
      have hxm : x.motor m = first (s.part.motor m) := Part.modMotor_motor_self _ _ _
      obtain ⟨st, hcor, hopen⟩ := Part.openPeriod_starved (p := x) (m := m) (period := 0#8) hread (by rw [hxm]; exact hheld)
        (by rw [hxm]; exact hlimit) hbyte
      have htwice : x.modMotor m (fun q => { q with setq := ((x.motor m).setq.decide 0#8 (x.motor m).setq.recs).2 }) =
          s.part.modMotor m fun q => { first q with
            setq := ((s.part.motor m).setq.decide 0#8 (s.part.motor m).setq.recs).2 } := by
        rw [hxm]
        simp only [x, Part.modMotor, Triple.get_set_self, Triple.set_set]
        rfl
      rw [htwice] at hopen
      have hafter : s.part.after (.firstValley m) = (x.openPeriod m 0#8).settle := by
        rw [s.part.after_of_timedWork rfl, Part.takeTimed_now _ _ _ he (Part.firstValley_due hs hw ht ho) rfl]
        rfl
      obtain ⟨h1, h2, h3, h4, h5⟩ := Part.starved_stops (p := s.part) m (fun q => { first q with
        setq := ((s.part.motor m).setq.decide 0#8 (s.part.motor m).setq.recs).2 }) hcor hq rfl rfl rfl rfl
      exact ⟨_, exec_of_after (hafter.trans (congrArg Part.settle hopen)), rfl, h1, h2, (fields h3).1, (fields h3).2, h4, h5⟩

end Sys2Proof.Machine
end

section
/-! Bad frames (R162 to R164), and the SAFE_STOP of every driven motor (R27, R149, R164). -/

namespace Sys2Proof.Machine

/-! ## Every driven motor stopped -/

theorem Part.driven_cases (p : Part) (m : Slot) :
    ((p.motor m).slot.state = .running ∨ (p.motor m).slot.state = .startPending) ∨
      ((p.motor m).slot.state ≠ .running ∧ (p.motor m).slot.state ≠ .startPending) := by
  rw [← not_or]
  exact Classical.em _

/-- What a SAFE_STOP request makes of its motor depends on that motor and the tick alone. -/
theorem Part.safeStop_motor_congr {p q : Part} (c : StopCause) {m : Slot} (hm : q.motor m = p.motor m) (hn : q.now = p.now) :
    (q.safeStop c m).motor m = (p.safeStop c m).motor m := by
  rcases p.driven_cases m with hd | ⟨hr, hs⟩
  · rw [p.safeStop_motor_self c m hd, q.safeStop_motor_self c m (hm ▸ hd), hm, hn]
  · rw [p.safeStop_idle c m hr hs, q.safeStop_idle c m (hm ▸ hr) (hm ▸ hs), hm]

theorem Part.safeStop_now (p : Part) (c : StopCause) (m : Slot) : (p.safeStop c m).now = p.now := by
  obtain ⟨ms, w, ob, e⟩ := p.safeStop_frame c m
  rw [e]
  rfl

/-- R27: of three SAFE_STOP requests each motor takes its own. -/
theorem Part.stopAll_motor (p : Part) (c : StopCause) (m : Slot) : (p.stopAll c).motor m = (p.safeStop c m).motor m := by
  rw [Part.stopAll, Part.eachMotor]
  cases m with
  | i0 => rw [safeStop_motor_ne _ c (by simp), safeStop_motor_ne _ c (by simp)]
  | i1 =>
    rw [safeStop_motor_ne _ c (by simp)]
    exact safeStop_motor_congr c (p.safeStop_motor_ne c (by simp)) (p.safeStop_now c _)
  | i2 =>
    refine safeStop_motor_congr c ?_ ?_
    · rw [safeStop_motor_ne _ c (by simp), safeStop_motor_ne _ c (by simp)]
    · rw [safeStop_now, safeStop_now]

theorem Part.stopAll_motor_idle (p : Part) (c : StopCause) (m : Slot) (hr : (p.motor m).slot.state ≠ .running)
    (hs : (p.motor m).slot.state ≠ .startPending) : (p.stopAll c).motor m = p.motor m := by
  rw [p.stopAll_motor, p.safeStop_idle c m hr hs]

/-- R149, R164: stopping every driven motor touches motors, the waiting list and the notices alone. -/
theorem Part.stopAll_frame (p : Part) (c : StopCause) : ∃ ms w ob,
    p.stopAll c = { p with motors := ms, sampler := { p.sampler with waiting := w }, outbox := ob } := by
  obtain ⟨_, _, _, h0⟩ := p.safeStop_frame c .i0
  obtain ⟨_, _, _, h1⟩ := (p.safeStop c .i0).safeStop_frame c .i1
  obtain ⟨_, _, _, h2⟩ := ((p.safeStop c .i0).safeStop c .i1).safeStop_frame c .i2
  rw [Part.stopAll, Part.eachMotor, h2, h1, h0]
  exact ⟨_, _, _, rfl⟩

/-- R117: the requests that a SAFE_STOP request leaves on the waiting list. -/
theorem Part.safeStop_waiting_mem {p : Part} {c : StopCause} {m : Slot} {w : WaitItem}
    (h : w ∈ (p.safeStop c m).sampler.waiting) : w ∈ p.sampler.waiting ∧
      (((p.motor m).slot.state = .running ∨ (p.motor m).slot.state = .startPending) → w.ofMotor m = false) := by
  rcases p.driven_cases m with hd | ⟨hr, hs⟩
  · rw [p.safeStop_waiting c m hd, List.mem_filter] at h
    exact ⟨h.1, fun _ => by simpa using h.2⟩
  · rw [p.safeStop_idle c m hr hs] at h
    exact ⟨h, fun hd => absurd hd (not_or.2 ⟨hr, hs⟩)⟩

theorem Part.stopAll_waiting_mem {p : Part} {c : StopCause} {w : WaitItem} (h : w ∈ (p.stopAll c).sampler.waiting) (m : Slot)
    (hd : (p.motor m).slot.state = .running ∨ (p.motor m).slot.state = .startPending) : w.ofMotor m = false := by
  rw [Part.stopAll, Part.eachMotor] at h
  obtain ⟨h, h2⟩ := safeStop_waiting_mem h
  obtain ⟨h, h1⟩ := safeStop_waiting_mem h
  obtain ⟨-, h0⟩ := safeStop_waiting_mem h
  cases m with
  | i0 => exact h0 hd
  | i1 => exact h1 (by rwa [p.safeStop_motor_ne c (by simp)])
  | i2 => exact h2 (by rwa [safeStop_motor_ne _ c (by simp), p.safeStop_motor_ne c (by simp)])

theorem Part.stopAll_safeStopped (p : Part) (c : StopCause) (m : Slot)
    (hd : (p.motor m).slot.state = .running ∨ (p.motor m).slot.state = .startPending) : p.SafeStopped (p.stopAll c) m c :=
  Part.safeStopped_of_motor hd (p.stopAll_motor c m) fun _ hw => stopAll_waiting_mem hw m hd

/-- A SAFE_STOP request raises its notice where the motor is driven (R27). -/
theorem Part.safeStop_notices (p : Part) (c : StopCause) (m : Slot) :
    (p.safeStop c m).outbox = p.outbox ++
      if (p.motor m).slot.state == .running || (p.motor m).slot.state == .startPending then [.safeStop m c] else [] := by
  rcases p.driven_cases m with hd | ⟨hr, hs⟩
  · rw [p.safeStop_outbox c m hd, if_pos (by simpa using hd)]
  · rw [p.safeStop_idle c m hr hs, if_neg (by simpa using ⟨hr, hs⟩), List.append_nil]

theorem Part.stopAll_outbox (p : Part) (c : StopCause) :
    (p.stopAll c).outbox = p.outbox ++ p.drivenMotors.map fun m => .safeStop m c := by
  have at1 : (p.safeStop c .i0).motor .i1 = p.motor .i1 := p.safeStop_motor_ne c (by simp)
  have at2 : ((p.safeStop c .i0).safeStop c .i1).motor .i2 = p.motor .i2 := by
    rw [safeStop_motor_ne _ c (by simp), p.safeStop_motor_ne c (by simp)]
  have single : ∀ (b : Bool) (x : Slot) (l : List Slot), ((if b then x :: l else l).map fun m => Notice.safeStop m c) =
      (if b then [.safeStop x c] else []) ++ l.map fun m => Notice.safeStop m c := fun b x l => by cases b <;> rfl
  rw [Part.stopAll, Part.eachMotor, safeStop_notices, safeStop_notices, safeStop_notices, at1, at2, List.append_assoc,
    List.append_assoc, Part.drivenMotors, Ix3.all]
  simp only [List.filter_cons, List.filter_nil, single, List.map_nil, List.append_nil]

theorem Schedules.ready_of_nothing {q : Motor} (h : q.NothingInFlight) : q.scheds.ready = [] := by
  rw [Schedules.ready, List.filter_eq_nil_iff]
  intro sc hsc
  rcases h sc (by simpa [or_comm] using hsc) with hh | hh <;> simp [Schedule.complete, hh]

/-- With nothing in flight, a stop of every motor completes no sample frame. -/
theorem Part.stopAll_joining {p : Part} (c : StopCause) (hf : ∀ m, (p.motor m).NothingInFlight) :
    (p.stopAll c).joining = (p.stopAll c).outbox.map .notice := by
  have none : ∀ m, ((p.stopAll c).motor m).scheds.ready.map (fun sc => FrameBody.sample (sc.frame m)) = [] := fun m => by
    rcases p.driven_cases m with hd | ⟨hr, hs⟩
    · rw [p.stopAll_motor, p.safeStop_motor_self c m hd]
      exact (Motor.leave_ready _ m .safeStop (some c)).trans (Motor.lastFrames_nil (hf m) m)
    · rw [p.stopAll_motor_idle c m hr hs, Schedules.ready_of_nothing (hf m), List.map_nil]
  rw [Part.joining, Part.readyFrames]
  simp only [none, List.map_const', List.flatten_replicate_nil, List.append_nil]

/-! ## The end of a transfer, its upstream frame consumed or not -/

theorem Upstream.leaveUnconsumed_foldl_append (l : List FrameBody) (u : Upstream) :
    (l.foldl Upstream.append u).leaveUnconsumed = l.foldl Upstream.append u.leaveUnconsumed := by
  induction l generalizing u with
  | nil => rfl
  | cons b l ih => exact ih (u.append b)

/-- A frame whose effect leaves the upstream side alone, at the end of its transfer. -/
theorem Part.endTransfer_apart (p : Part) (fin : Upstream → Upstream) (act : FrameEffect) (g : Part → Part) (he : p.en = true)
    (ht : p.up.transfer ≠ .ignored) (h : ∀ u n, act { p with up := u, free := n } = ([], { g p with up := u, free := n })) :
    p.endTransfer fin act = { g p with
      up := if p.up.transfer = .absent then p.up else fin p.up, free := p.transferEnded.free } := by
  obtain ⟨u, v, -, heq, hends⟩ := p.endTransfer_among fin act he ht fun u => by rw [h]
  rw [h] at heq hends
  rw [heq]
  by_cases ha : p.up.transfer = .absent
  · rw [if_pos ha, hends.1 ha]
    rfl
  · obtain ⟨n, hv⟩ := hends.2 ha
    rw [if_neg ha, hv]
    simp only [List.take_nil, List.drop_nil, List.foldl_nil]

/-! ## Bad frames (R164) -/

/-- R164: in LOST the recovery run starts over. -/
theorem Link.raiseErrors_lost (l : Link) (h : l.errors = 256) : l.raiseErrors = { l with recovery := 0 } := by
  cases l
  obtain rfl : _ = 256 := h
  rfl

/-- R164: 8 on the error count, short of a link loss. -/
theorem Link.raiseErrors_short (l : Link) (h : l.errors + 8 < 256) :
    l.raiseErrors = { l with
      errors := l.errors + 8
      degradedEntries := if l.errors < 128 ∧ 128 ≤ l.errors + 8 then bump l.degradedEntries else l.degradedEntries } := by
  have hmin : min (l.errors + 8) 256 = l.errors + 8 := by omega
  have h256 : l.errors < 256 := by omega
  simp only [Link.raiseErrors, Link.state, hmin, h256, h, if_true]
  by_cases h1 : l.errors < 128
  · by_cases h2 : l.errors + 8 < 128
    · simp [h1, h2, Nat.not_le.2 h2]
    · simp [h1, h2, Nat.le_of_not_lt h2]
  · have h2 : ¬l.errors + 8 < 128 := by omega
    simp [h1, h2]

/-- R164: the bad frame that brings the error count to 256. -/
theorem Link.raiseErrors_loss (l : Link) (h1 : l.errors < 256) (h2 : 256 ≤ l.errors + 8) :
    l.raiseErrors = { l with errors := 256, lostEntries := bump l.lostEntries, recovery := 0 } := by
  have hmin : min (l.errors + 8) 256 = 256 := by omega
  have hdeg : ¬l.errors < 128 := by omega
  simp [Link.raiseErrors, Link.state, hmin, hdeg, h1]

theorem Link.state_lost (l : Link) : l.state = .lost ↔ 256 ≤ l.errors := by
  unfold Link.state
  split
  · simp; omega
  · split
    · simp; omega
    · simp; omega

/-- R164: short of a link loss a bad frame moves the link alone. -/
theorem Part.badFrame_short {p : Part} (g : Link → Link) (hg : (g p.link).errors = p.link.errors)
    (h : p.link.errors = 256 ∨ p.link.errors + 8 < 256) :
    (p.modLink g).badFrame = { p with link := (g p.link).raiseErrors } := by
  refine if_neg fun ⟨hl, hb⟩ => ?_
  rw [Link.state_lost] at hl
  rw [ne_eq, Link.state_lost] at hb
  change 256 ≤ (g p.link).raiseErrors.errors at hl
  change ¬256 ≤ (g p.link).errors at hb
  rw [hg] at hb
  rcases h with h | h
  · omega
  · rw [(g p.link).raiseErrors_short (hg ▸ h)] at hl
    change 256 ≤ (g p.link).errors + 8 at hl
    omega

/-- R164: the bad frame that brings the error count to 256 stops every driven motor. -/
theorem Part.badFrame_loss {p : Part} (g : Link → Link) (hg : (g p.link).errors = p.link.errors) (h1 : p.link.errors < 256)
    (h2 : 256 ≤ p.link.errors + 8) :
    (p.modLink g).badFrame =
      ({ p with link := { g p.link with errors := 256, lostEntries := bump (g p.link).lostEntries, recovery := 0 } } :
        Part).stopAll .link := by
  have hr := (g p.link).raiseErrors_loss (hg ▸ h1) (hg ▸ h2)
  have hx : (p.modLink g).modLink Link.raiseErrors =
      { p with link := { g p.link with errors := 256, lostEntries := bump (g p.link).lostEntries, recovery := 0 } } := by
    rw [← hr]
    rfl
  have hb : (g p.link).state ≠ .lost := fun e => absurd ((Link.state_lost _).1 e) (by rw [hg]; omega)
  rw [Part.badFrame, hx]
  exact if_pos ⟨(Link.state_lost _).2 (Nat.le_refl _), hb⟩

/-- Frames that are some notices in any order. -/
theorem exists_notices {frames : List FrameBody} {l : List Notice} (h : frames.Perm (l.map .notice)) :
    ∃ k : List Notice, k.Perm l ∧ frames = k.map .notice := by
  have hrange : frames ∈ Set.range (List.map FrameBody.notice) := by
    rw [Set.range_list_map]
    intro b hb
    obtain ⟨n, -, hn⟩ := List.mem_map.1 (h.mem_iff.1 hb)
    exact ⟨n, hn⟩
  obtain ⟨k, rfl⟩ := hrange
  exact ⟨k, (List.map_perm_map_iff fun _ _ => FrameBody.notice.inj).1 h, rfl⟩

/-! ## The obligation -/

/-- R136, R163, R164: a command that is a bad frame, `g` the count of its kind, `fin` the end of its transfer and `before` the
upstream side after that end. -/
structure BadFrame (c : Instr) (s : State) (before : Upstream) (fin : Upstream → Upstream) (g : Link → Link) : Prop where
  runs : exec c s = .next { s with part := s.part.endTransfer fin fun q => ((q.modLink g).badFrame).gather }
  count : ∃ check kind aborted, g s.part.link =
    { s.part.link with badCheck := check, unknownKind := kind, aborted := aborted }
  append : s.part.up.Numbered → ∀ l : List FrameBody,
    fin (l.foldl Upstream.append s.part.up) = l.foldl Upstream.append (fin s.part.up)
  shorter : (fin s.part.up).queue.length ≤ s.part.up.queue.length
  queue : (if s.part.up.transfer = .absent then s.part.up else fin s.part.up).queue = before.queue

theorem badFrame_of (s : State) (why : BadKind) (ht : s.part.up.transfer ≠ .ignored) :
    BadFrame (.badFrame why) s s.part.transferEnded.up Upstream.consume (·.countBad why) where
  runs := rfl
  count := by cases why <;> exact ⟨_, _, _, rfl⟩
  append h l := Upstream.consume_foldl_append l _ h
  shorter := Upstream.consume_queue_length _
  queue := by rw [Part.transferEnded_up ht]

theorem badFrame_of_aborted (s : State) :
    BadFrame .abortedTransfer s s.part.up Upstream.leaveUnconsumed fun l => { l with aborted := bump l.aborted } where
  runs := rfl
  count := ⟨_, _, _, rfl⟩
  append _ l := Upstream.leaveUnconsumed_foldl_append l _
  shorter := Nat.le_refl _
  queue := by split <;> rfl

/-- R164: short of a link loss. -/
theorem BadFrame.short {c : Instr} {s : State} {before : Upstream} {fin : Upstream → Upstream} {g : Link → Link}
    (h : BadFrame c s before fin g) (he : s.part.en = true) (hq : s.part.Quiet) (ht : s.part.up.transfer ≠ .ignored)
    (hs : s.part.link.errors = 256 ∨ s.part.link.errors + 8 < 256) :
    exec c s = .next { s with part := { s.part with
      link := (g s.part.link).raiseErrors
      up := if s.part.up.transfer = .absent then s.part.up else fin s.part.up
      free := s.part.transferEnded.free } } := by
  obtain ⟨check, kind, aborted, hg⟩ := h.count
  rw [h.runs, s.part.endTransfer_apart fin _ (fun q => { q with link := (g s.part.link).raiseErrors }) he ht fun u n => ?_]
  rw [Part.badFrame_short (p := { s.part with up := u, free := n }) g (by rw [hg]) hs]
  exact Part.gather_quiet _ ⟨hq.outbox, hq.handed⟩

/-- R27, R28, R164: the link loss. -/
theorem BadFrame.loss {c : Instr} {s : State} {before : Upstream} {fin : Upstream → Upstream} {g : Link → Link}
    (h : BadFrame c s before fin g) (he : s.part.en = true) (ht : s.part.up.transfer ≠ .ignored)
    (h1 : s.part.link.errors < 256) (h2 : 256 ≤ s.part.link.errors + 8) :
    ∃ (u v : Upstream) (n : Nat),
      let y : Part := { s.part with up := u, free := n, link := { g s.part.link with
        errors := 256, lostEntries := bump s.part.link.lostEntries, recovery := 0 } }
      exec c s = .next { s with part := { (y.stopAll .link).gather.2 with up := v } } ∧
        s.part.up.EndsAmong v fin (y.stopAll .link).gather.1 := by
  obtain ⟨check, kind, aborted, hg⟩ := h.count
  have hbad : ∀ u n, (({ s.part with up := u, free := n } : Part).modLink g).badFrame =
      ({ s.part with up := u, free := n, link := { g s.part.link with
        errors := 256, lostEntries := bump s.part.link.lostEntries, recovery := 0 } } : Part).stopAll .link := fun u n => by
    rw [Part.badFrame_loss (p := { s.part with up := u, free := n }) g (by rw [hg]) h1 h2, hg]
  obtain ⟨u, v, -, heq, hends⟩ := s.part.endTransfer_among fin (fun q => ((q.modLink g).badFrame).gather) he ht fun u => by
    rw [hbad]
    obtain ⟨ms, w, ob, e⟩ := Part.stopAll_frame _ .link
    rw [e]
    rfl
  rw [hbad] at heq hends
  exact ⟨u, v, _, by rw [h.runs, heq], hends⟩

/-- Settles O46: `BadFrame.short`, and `BadFrame.loss` with the motors' SAFE_STOP. -/
theorem badFramesCountAgainstTheLink : Obligations.BadFramesCountAgainstTheLink := by
  refine ⟨fun s he hq ht hs => ?_, fun s c he hq ht h1 h2 hc => ?_⟩
  · intro l raised
    have check := (badFrame_of s .check ht).short he hq ht hs
    have kind := (badFrame_of s .kind ht).short he hq ht hs
    have aborted := (badFrame_of_aborted s).short he hq ht hs
    rw [← Part.transferEnded_up ht] at check kind
    rcases hs with h | h
    · have hr : raised = { l with recovery := 0 } := if_pos h
      rw [Link.raiseErrors_lost (s.part.link.countBad .check) h] at check
      rw [Link.raiseErrors_lost (s.part.link.countBad .kind) h] at kind
      rw [Link.raiseErrors_lost { s.part.link with aborted := bump s.part.link.aborted } h] at aborted
      rw [hr, s.part.transferEnded_eq]
      exact ⟨check, kind, aborted⟩
    · have hr : raised = { l with
          errors := l.errors + 8
          degradedEntries := if l.errors < 128 ∧ 128 ≤ l.errors + 8 then bump l.degradedEntries else l.degradedEntries } :=
        if_neg (show s.part.link.errors ≠ 256 by omega)
      rw [Link.raiseErrors_short (s.part.link.countBad .check) h] at check
      rw [Link.raiseErrors_short (s.part.link.countBad .kind) h] at kind
      rw [Link.raiseErrors_short { s.part.link with aborted := bump s.part.link.aborted } h] at aborted
      rw [hr, s.part.transferEnded_eq]
      exact ⟨check, kind, aborted⟩
  · have hkind : ∃ fin g, BadFrame c s (if c = .abortedTransfer then s.part.up else s.part.transferEnded.up) fin g := by
      rcases hc with rfl | rfl | rfl
      · exact ⟨_, _, badFrame_of s .check ht⟩
      · exact ⟨_, _, badFrame_of s .kind ht⟩
      · exact ⟨_, _, badFrame_of_aborted s⟩
    obtain ⟨fin, g, hbad⟩ := hkind
    obtain ⟨check, kind, aborted, hg⟩ := hbad.count
    obtain ⟨u, v, n, hexec, hends⟩ := hbad.loss he ht h1 h2
    let y : Part := { s.part with up := u, free := n, link := { g s.part.link with
      errors := 256, lostEntries := bump s.part.link.lostEntries, recovery := 0 } }
    obtain ⟨ms, w, ob, hframe⟩ := y.stopAll_frame .link
    have hlink : (y.stopAll .link).link = y.link := by rw [hframe]
    have hon := (y.stopAll .link).gather_handsOn v
    refine ⟨_, hexec, rfl, ?_, ?_, ?_, ?_, ?_, ?_, ?_, ?_, ?_, ?_, ?_, fun m => ⟨fun hd => ?_, fun hr hp => ?_⟩⟩
    · exact congrArg Link.errors hlink
    · exact (Link.state_lost _).2 (Nat.le_of_eq (congrArg Link.errors hlink).symm)
    · exact congrArg Link.recovery hlink
    · exact congrArg Link.lostEntries hlink
    · refine (congrArg Link.degradedEntries hlink).trans ?_
      simp only [y, hg]
    · exact (congrArg Part.tb hframe :)
    · exact (congrArg Part.store hframe :)
    · exact (congrArg Part.bus hframe :)
    · exact (congrArg (·.sampler.holds) hframe :)
    · exact (congrArg (·.sampler.fifo) hframe :)
    · intro hf hn hroom
      have hnotices : (y.stopAll .link).gather.1.Perm ((s.part.drivenMotors.map fun m => .safeStop m .link).map .notice) := by
        refine (Part.gather_perm _).trans ?_
        rw [Part.stopAll_joining (p := y) .link hf, y.stopAll_outbox, show y.outbox = [] from hq.outbox]
        exact .refl _
      obtain ⟨l, hl, he'⟩ := exists_notices hnotices
      have hlen : l.length ≤ 3 := by
        rw [hl.length_eq, List.length_map]
        exact List.length_filter_le _ _
      rw [he'] at hends
      refine ⟨l, hl, ?_⟩
      have hv := hends.room (hbad.append hn) hbad.shorter (by simp [FrameBody.isSample]) (by simp; omega)
      rw [← hbad.queue, ← Upstream.foldl_append_bodies, ← hv]
    · exact ((y.stopAll_safeStopped .link m hd).handsOn hon).of_motor rfl rfl rfl
    · have hsame := y.stopAll_motor_idle .link m hr hp
      exact (hon.motor_same fun sc h => hq.handed m sc (hsame ▸ h)).trans hsame

end Sys2Proof.Machine
end

section
/-! The bus supervisor (R122, R148, R149). -/

namespace Sys2Proof.Machine

/-! ## The order of the BUS_CROSS notices (R149) -/

theorem crossInOrder_filter (cs l : List FrameBody) (hcs : ∀ c ∈ cs, c.isCross = true)
    (h : cs.length = (l.filter FrameBody.isCross).length) : (crossInOrder cs l).filter FrameBody.isCross = cs := by
  induction l generalizing cs with
  | nil =>
    rw [List.filter_nil, List.length_nil, List.length_eq_zero_iff] at h
    rw [h]
    rfl
  | cons f l ih =>
    cases cs with
    | nil => exact List.length_eq_zero_iff.1 h.symm
    | cons c cs =>
      rw [crossInOrder]
      cases hf : f.isCross with
      | true =>
        rw [List.filter_cons_of_pos hf, List.length_cons, List.length_cons, Nat.add_right_cancel_iff] at h
        rw [if_pos rfl, List.filter_cons_of_pos (hcs c List.mem_cons_self), ih cs (fun x hx => hcs x (List.mem_cons_of_mem _ hx)) h]
      | false =>
        rw [List.filter_cons_of_neg (by simp [hf])] at h
        rw [if_neg (by simp), List.filter_cons_of_neg (by simp [hf]), ih (c :: cs) hcs h]

/-- R149: of two BUS_CROSS notices the one raised first joins first. -/
theorem arranged_filter (n : Nat) (l : List FrameBody) : (arranged n l).filter FrameBody.isCross = l.filter FrameBody.isCross :=
  crossInOrder_filter _ _ (fun _ hc => (List.mem_filter.1 hc).2) ((anyOrder_perm l.length n l).filter _).length_eq.symm

/-- R130, R131, R149: BUS_CROSS notices and others, at the end of a command that completes no sample frame. -/
theorem Part.settle_notices {x : Part} {crosses others : List Notice} (hj : x.joining = (crosses ++ others).map .notice)
    (hc : ∀ n ∈ crosses, (FrameBody.notice n).isCross = true) (ho : ∀ n ∈ others, (FrameBody.notice n).isCross = false)
    (hr : x.up.queue.length + (crosses ++ others).length ≤ 8) :
    ∃ l : List Notice, l.Perm (crosses ++ others) ∧ crosses.Sublist l ∧
      x.settle.up = l.foldl (fun u n => u.append (.notice n)) x.up := by
  obtain ⟨l, hl, he⟩ := exists_notices (hj ▸ x.gather_perm)
  have hcross : (l.filter fun n => (FrameBody.notice n).isCross) = crosses := by
    have hfilter : (l.map FrameBody.notice).filter FrameBody.isCross =
        ((crosses ++ others).map FrameBody.notice).filter FrameBody.isCross := by
      rw [← he, ← hj]
      exact arranged_filter _ _
    rw [List.filter_map, List.filter_map, List.filter_append] at hfilter
    have hkept : crosses.filter (FrameBody.isCross ∘ FrameBody.notice) = crosses := List.filter_eq_self.2 hc
    have hnone : others.filter (FrameBody.isCross ∘ FrameBody.notice) = [] := List.filter_eq_nil_iff.2 (by simpa using ho)
    rw [hkept, hnone, List.append_nil] at hfilter
    exact (List.map_injective_iff.2 fun _ _ => FrameBody.notice.inj) hfilter
  refine ⟨l, hl, hcross ▸ List.filter_sublist, ?_⟩
  have hup : x.gather.2.up = x.up := rfl
  rw [Part.settle, Part.joinAll_up, he, Part.modUp_up, hup, Upstream.foldl_join_room _ _ (by simp [FrameBody.isSample])
    (by simpa [hl.length_eq] using hr), List.foldl_map]

/-! ## The supervisor's states (R148) -/

/-- The supervisor's states and counts after a code. -/
def BusSup.moved (b : BusSup) (below high : Bool) : BusSup :=
  { uvBelow := below, ovHigh := high
    uvCross := if below = b.uvBelow then b.uvCross else bump b.uvCross
    ovCross := if high = b.ovHigh then b.ovCross else bump b.ovCross }

/-- R149: the notices of a code, UV first. -/
def BusSup.crosses (b : BusSup) (below high : Bool) (c : Code) : List Notice :=
  (if below = b.uvBelow then [] else [.busCross (if below then .toBelow else .toAbove) c]) ++
    if high = b.ovHigh then [] else [.busCross (if high then .toHigh else .toNormal) c]

theorem BusSup.crosses_isCross {b : BusSup} {below high : Bool} {c : Code} :
    ∀ n ∈ b.crosses below high c, (FrameBody.notice n).isCross = true := by
  intro n hn
  rcases List.mem_append.1 hn with h | h
  · split at h
    · exact absurd h List.not_mem_nil
    · rw [List.mem_singleton.1 h]
      rfl
  · split at h
    · exact absurd h List.not_mem_nil
    · rw [List.mem_singleton.1 h]
      rfl

theorem BusSup.crosses_length (b : BusSup) (below high : Bool) (c : Code) : (b.crosses below high c).length ≤ 2 := by
  have one : ∀ (q : Prop) [Decidable q] (n : Notice), (if q then [] else [n]).length ≤ 1 := fun q _ n => by split <;> simp
  rw [BusSup.crosses, List.length_append]
  exact Nat.add_le_add (one _ _) (one _ _)

theorem Part.setUv_setOv (p : Part) (below high : Bool) (c : Code) : (p.setUv below c).setOv high c =
    { p with bus := p.bus.moved below high, outbox := p.outbox ++ p.bus.crosses below high c } := by
  have uv : p.setUv below c = { p with
      bus := { p.bus with uvBelow := below, uvCross := if below = p.bus.uvBelow then p.bus.uvCross else bump p.bus.uvCross }
      outbox := p.outbox ++ if below = p.bus.uvBelow then [] else [.busCross (if below then .toBelow else .toAbove) c] } := by
    unfold Part.setUv
    by_cases h : p.bus.uvBelow = below
    · simp [← h]
    · simp only [h, Ne.symm h, if_false]
      rfl
  rw [uv, Part.setOv]
  by_cases h : p.bus.ovHigh = high
  · simp [h, BusSup.moved, BusSup.crosses]
  · simp only [h, if_false]
    simp [BusSup.moved, BusSup.crosses, Ne.symm h, Part.notice, Part.modBus]

theorem nextUv_eq (below : Bool) (c level hyst : Nat) :
    nextUv below c level hyst = if below then decide (c ≤ level + hyst) else decide (c < level) := by
  cases below <;> simp only [nextUv, if_true, Bool.false_eq_true, if_false, ← decide_not, Nat.not_lt]

theorem nextOv_eq (high : Bool) (c level hyst : Nat) :
    nextOv high c level hyst = if high then decide (level ≤ c + hyst) else decide (level < c) := by
  cases high <;> simp only [nextOv, if_true, Bool.false_eq_true, if_false, ← decide_not, Nat.not_lt]

/-! ## The stop (R149) -/

/-- R149: what the supervisor stops every driven motor with, or no stop. -/
def Part.stopFor (p : Part) : Option StopCause → Part
  | none => p
  | some c => p.stopAll c

/-- R27: a second stop finds no driven motor. -/
theorem Part.stopAll_stopAll (p : Part) (c d : StopCause) : (p.stopAll c).stopAll d = p.stopAll c := by
  have idle : ∀ m, ((p.stopAll c).motor m).slot.state ≠ .running ∧ ((p.stopAll c).motor m).slot.state ≠ .startPending :=
    fun m => by
      rcases p.driven_cases m with hd | ⟨hr, hs⟩
      · rw [(p.stopAll_safeStopped c m hd).state]
        simp
      · rw [p.stopAll_motor_idle c m hr hs]
        exact ⟨hr, hs⟩
  have step : ∀ m, (p.stopAll c).safeStop d m = p.stopAll c := fun m => Part.safeStop_idle _ d m (idle m).1 (idle m).2
  rw [Part.stopAll, Part.eachMotor, step, step, step]

theorem Part.stopFor_frame (p : Part) (o : Option StopCause) : ∃ ms w ob,
    p.stopFor o = { p with motors := ms, sampler := { p.sampler with waiting := w }, outbox := ob } := by
  cases o with
  | none => exact ⟨_, _, _, rfl⟩
  | some c => exact p.stopAll_frame c

theorem Part.stopFor_settle_frame (p : Part) (o : Option StopCause) : ∃ ms w up n, (p.stopFor o).settle =
    { p with motors := ms, sampler := { p.sampler with waiting := w }, up := up, free := n, outbox := [] } := by
  obtain ⟨_, _, _, hframe⟩ := p.stopFor_frame o
  obtain ⟨_, _, h⟩ := (p.stopFor o).settle_handsOn
  rw [h, hframe]
  exact ⟨_, _, _, _, rfl⟩

/-- R149: the notices of the stops. -/
def Part.stopNotices (p : Part) : Option StopCause → List Notice
  | none => []
  | some c => p.drivenMotors.map fun m => .safeStop m c

theorem Part.stopNotices_not_cross {p : Part} {o : Option StopCause} :
    ∀ n ∈ p.stopNotices o, (FrameBody.notice n).isCross = false := by
  intro n hn
  cases o with
  | none => exact absurd hn List.not_mem_nil
  | some c =>
    obtain ⟨m, -, rfl⟩ := List.mem_map.1 hn
    rfl

theorem Part.stopNotices_length (p : Part) (o : Option StopCause) : (p.stopNotices o).length ≤ 3 := by
  cases o with
  | none => exact Nat.zero_le _
  | some c =>
    rw [Part.stopNotices, List.length_map]
    exact List.length_filter_le _ _

/-- With nothing in flight, a stop of every motor or none completes no sample frame. -/
theorem Part.stopFor_joining {p : Part} (o : Option StopCause) (hf : ∀ m, (p.motor m).NothingInFlight) :
    (p.stopFor o).joining = (p.outbox ++ p.stopNotices o).map .notice := by
  cases o with
  | none =>
    have none : ∀ m, (p.motor m).scheds.ready = [] := fun m => Schedules.ready_of_nothing (hf m)
    simp [Part.stopFor, Part.stopNotices, Part.joining, Part.readyFrames, none]
  | some c =>
    rw [Part.stopFor, Part.stopAll_joining c hf, p.stopAll_outbox]
    rfl

theorem Part.stopFor_driven {p : Part} {c : StopCause} {m : Slot}
    (hd : (p.motor m).slot.state = .running ∨ (p.motor m).slot.state = .startPending) :
    p.SafeStopped (p.stopFor (some c)) m c := p.stopAll_safeStopped c m hd

theorem Part.stopFor_idle (p : Part) (o : Option StopCause) {m : Slot} (hr : (p.motor m).slot.state ≠ .running)
    (hs : (p.motor m).slot.state ≠ .startPending) : (p.stopFor o).motor m = p.motor m := by
  cases o with
  | none => rfl
  | some c => exact p.stopAll_motor_idle c m hr hs

/-! ## A bus code (R122) -/

/-- R122: the bus request after a bus code: a later one that waits stands. -/
theorem Sampler.takeBusCode_waiting {s : Sampler} {ch : Fin 16} {a b : Tick} (c : Code) (h : s.busReq = .waiting ch a b) :
    (s.takeBusCode c).busReq = .waiting ch a b := by
  simp only [Sampler.takeBusCode, h]

theorem Sampler.takeBusCode_absent {s : Sampler} (c : Code) (h : ∀ ch a b, s.busReq ≠ .waiting ch a b)
    (hf : ∀ f ∈ s.fifo, f.req ≠ .bus) : (s.takeBusCode c).busReq = .absent := by
  have hno : (s.fifo.any (·.req == .bus)) = false := by simpa using hf
  simp only [Sampler.takeBusCode, hno]
  cases hb : s.busReq with
  | absent | frozen => simp
  | waiting ch a b => exact absurd hb (h ch a b)

/-- R122: the part after the head of the FIFO has brought its bus code, before that code is judged. -/
def Part.withBusCode (p : Part) (code : Code) (e : FifoEntry) (rest : List FifoEntry) : Part :=
  p.modSampler fun s => (s.convert p.now code e rest).takeBusCode code

/-- R122: what a bus code does to the bus request, whatever becomes of the waiting list. -/
theorem Part.withBusCode_freed (p : Part) (code : Code) (e : FifoEntry) (rest : List FifoEntry) :
    (∀ ch a b, p.sampler.busReq = .waiting ch a b → (p.withBusCode code e rest).sampler.busReq = .waiting ch a b) ∧
      ((∀ ch a b, p.sampler.busReq ≠ .waiting ch a b) → (∀ f ∈ rest, f.req ≠ .bus) →
        (p.withBusCode code e rest).sampler.busReq = .absent) :=
  ⟨fun _ _ _ h => Sampler.takeBusCode_waiting code h, fun h hf => Sampler.takeBusCode_absent code h hf⟩

/-- R112, R122: the conversion due at this instant brings a bus code. -/
theorem Part.after_busCode {p : Part} (code : Code) {e : FifoEntry} {rest : List FifoEntry} (he : p.en = true)
    (hc : p.sampler.conv = some p.now) (hf : p.sampler.fifo = e :: rest) (hr : e.req = .bus) :
    p.after (.conversionComplete code) = ((p.withBusCode code e rest).judgeBus code).settle := by
  have hdelay : p.delay (.conversionComplete code) = some 0 := by
    simp [Part.delay, Part.convDelay, hc, ticksFrom_self]
  rw [p.after_of_timedWork rfl, Part.takeTimed_now _ _ _ he hdelay rfl, Part.converted, hf]
  simp only [hr]
  rfl

/-- R149: the cause that the supervisor stops the motors with, UV before OV. -/
def stopCauseOf (uv ov : Bool) : Option StopCause := if uv then some .busUv else if ov then some .busOv else none

theorem Part.stopAll_both (p : Part) (uv ov : Bool) :
    (let q := if uv then p.stopAll .busUv else p
     if ov then q.stopAll .busOv else q) = p.stopFor (stopCauseOf uv ov) := by
  cases uv <;> cases ov
  · rfl
  · rfl
  · rfl
  · exact p.stopAll_stopAll .busUv .busOv

/-- R148, R149: a code judged with words 5 and 6 of a valid CONFIG. -/
theorem Part.judgeBus_config {p : Part} {ws : List (List Nat)} {st : Store} (c : Code)
    (h : p.readConfig [5, 6] = (some ws, { p with store := st })) :
    let below := nextUv p.bus.uvBelow c.toNat (recField ws 0 0) (recField ws 1 0)
    let high := nextOv p.bus.ovHigh c.toNat (recField ws 0 1) (recField ws 1 0)
    p.judgeBus c = ({ p with
        store := st, bus := p.bus.moved below high, outbox := p.outbox ++ p.bus.crosses below high c } : Part).stopFor
      (stopCauseOf (below && !p.bus.uvBelow && recField ws 1 1 == 1) (high && !p.bus.ovHigh && recField ws 1 2 == 1)) := by
  intro below high
  simp only [Part.judgeBus, h]
  rw [Part.setUv_setOv]
  exact Part.stopAll_both _ _ _

/-- Settles O40: `judgeBus_config` with the stop that it names, and the code that is not judged. -/
theorem busCodeJudged : Obligations.BusCodeJudged := by
  refine ⟨fun s code e rest he hq hconv hfifo hreq hvalid hread => ?_,
    fun s code e rest he hq hconv hfifo hreq hvalid hwhole => ?_⟩
  · intro uv ov hyst below high stopUv stopOv
    let p := s.part.withBusCode code e rest
    obtain ⟨st, hcor, hconf⟩ := p.readConfig_whole [5, 6] fun pos hp _ => (hread pos hp).2
    rw [if_pos (show p.store.recordValid .config = true from hvalid)] at hconf
    let uvStops := below && !s.part.bus.uvBelow && field (s.part.store.word 6).fields 1 == 1
    let ovStops := high && !s.part.bus.ovHigh && field (s.part.store.word 6).fields 2 == 1
    let o := stopCauseOf uvStops ovStops
    have hUv : uvStops = true ↔ stopUv := by simp [uvStops, stopUv, and_assoc, and_left_comm]
    have hOv : ovStops = true ↔ stopOv := by simp [ovStops, stopOv, and_assoc, and_left_comm]
    have huv : stopUv → o = some .busUv := fun h => if_pos (hUv.2 h)
    have hov : ¬stopUv → stopOv → o = some .busOv := fun h1 h2 => (if_neg (hUv.not.2 h1)).trans (if_pos (hOv.2 h2))
    have hno : ¬stopUv → ¬stopOv → o = none := fun h1 h2 => (if_neg (hUv.not.2 h1)).trans (if_neg (hOv.not.2 h2))
    let x : Part := { p with
      store := st, bus := s.part.bus.moved below high, outbox := s.part.bus.crosses below high code }
    have hjudge : p.judgeBus code = x.stopFor o := by
      rw [Part.judgeBus_config code hconf, nextUv_eq, nextOv_eq, show p.outbox = [] from hq.outbox]
      rfl
    have hafter := s.part.after_busCode code he hconv hfifo hreq
    rw [show s.part.withBusCode code e rest = p from rfl, hjudge] at hafter
    have hon := (x.stopFor o).settle_handsOn
    obtain ⟨ms, w, up, n, ht⟩ := x.stopFor_settle_frame o
    refine ⟨_, exec_of_after hafter, (congrArg (·.sampler.lastCode) ht :), ?_, (congrArg (·.bus.uvBelow) ht :),
      (congrArg (·.bus.ovHigh) ht :), (congrArg (·.bus.uvCross) ht :), (congrArg (·.bus.ovCross) ht :), (congrArg Part.tb ht :),
      (congrArg Part.link ht :), ?_, fun hf hr => ?_, fun m => ⟨fun hd => ?_, fun h1 h2 => ?_⟩⟩
    · have hfree := s.part.withBusCode_freed code e rest
      rw [ht]
      exact hfree
    · rw [ht]
      exact hcor
    · intro crosses stops
      have hj : (x.stopFor o).joining = (crosses ++ x.stopNotices o).map .notice := Part.stopFor_joining (p := x) o hf
      have hup : (x.stopFor o).up = s.part.up := by
        obtain ⟨_, _, _, hframe⟩ := x.stopFor_frame o
        rw [hframe]
        rfl
      have hlen : crosses.length ≤ 2 := s.part.bus.crosses_length below high code
      have hstops := x.stopNotices_length o
      obtain ⟨l, hl, hsub, hu⟩ := Part.settle_notices hj BusSup.crosses_isCross Part.stopNotices_not_cross (by
        rw [hup, List.length_append]
        omega)
      rw [hup] at hu
      refine ⟨l, fun h => ?_, fun h1 h2 => ?_, fun h1 h2 => ?_, hsub, hu⟩
      · rwa [huv h] at hl
      · rwa [hov h1 h2] at hl
      · rw [hno h1 h2] at hl
        exact (hsub.eq_of_length (hl.length_eq.trans (congrArg List.length (List.append_nil _))).symm).symm
    · have stopped : ∀ c, o = some c → s.part.SafeStopped (x.stopFor o).settle m c := fun c h => by
        rw [h] at hon ⊢
        exact ((Part.stopFor_driven (p := x) hd).handsOn hon).of_motor rfl rfl rfl
      refine ⟨fun h => stopped _ (huv h), fun h1 h2 => stopped _ (hov h1 h2), fun h1 h2 => ?_⟩
      have hx : x.stopFor o = x := congrArg x.stopFor (hno h1 h2)
      rw [hx] at hon ⊢
      exact hon.motor_same (hq.handed m)
    · exact (hon.motor_same fun sc h => hq.handed m sc (x.stopFor_idle o h1 h2 ▸ h)).trans (x.stopFor_idle o h1 h2)
  · let p := s.part.withBusCode code e rest
    obtain ⟨st, hcor, hconf⟩ := p.readConfig_whole [5, 6] fun pos hp =>
      hwhole pos (by simpa using (show pos ∈ [5, 6] from hp))
    rw [if_neg (show ¬p.store.recordValid .config = true by rw [show p.store = s.part.store from rfl, hvalid]; simp)] at hconf
    have hjudge : p.judgeBus code = { p with store := st } := by simp only [Part.judgeBus, hconf]
    have hquiet : ({ p with store := st } : Part).Quiet := ⟨hq.outbox, hq.handed⟩
    have hafter := s.part.after_busCode code he hconv hfifo hreq
    rw [show s.part.withBusCode code e rest = p from rfl, hjudge, Part.settle_quiet _ hquiet] at hafter
    exact ⟨_, exec_of_after hafter, rfl, rfl, s.part.withBusCode_freed code e rest, rfl, rfl, rfl, rfl, rfl, hcor⟩

end Sys2Proof.Machine
end

section
/-! Words read one after another (R157, R158), and ARM (R18, R20). -/

namespace Sys2Proof.Machine

/-! ## A read that trips no motor, on the store -/

/-- R157: a read finds the word uncorrectable. -/
def Store.brokenAt (st : Store) (pos : Fin 82) : Bool := (st.word pos).valid && (st.word pos).broken pos

/-- R157, R158: the store after a read of a word. -/
def Store.readAt (st : Store) (pos : Fin 82) : Store :=
  if st.brokenAt pos then st.invalidate pos
  else if (st.word pos).valid && (st.word pos).flips == .one then st.correct pos else st

/-- The store after reads of words one after another. -/
def Store.readAll (st : Store) : List (Fin 82) → Store
  | [] => st
  | pos :: l => (st.readAt pos).readAll l

/-- R158: the notice of a word found uncorrectable. -/
def tableNotice (pos : Fin 82) : Notice := .tableInvalid (regionIndex pos).1 (regionIndex pos).2

theorem Store.word_invalidate (st : Store) (pos q : Fin 82) :
    (st.invalidate pos).word q = if q = pos then { st.word pos with valid := false } else st.word q :=
  Store.word_setWord _ _ _ _

theorem Store.word_readAt_ne (st : Store) {pos q : Fin 82} (h : q ≠ pos) : (st.readAt pos).word q = st.word q := by
  unfold Store.readAt
  split
  · rw [word_invalidate, if_neg h]
  · split
    · rw [word_correct, if_neg h]
    · rfl

theorem Store.readAt_fields (st : Store) (pos q : Fin 82) : ((st.readAt pos).word q).fields = (st.word q).fields := by
  by_cases h : q = pos
  · subst h
    unfold Store.readAt
    split
    · rw [word_invalidate, if_pos rfl]
    · split
      · rw [word_correct, if_pos rfl]
      · rfl
  · rw [st.word_readAt_ne h]

/-- R158: a read leaves the valid mark of a word that it does not find uncorrectable. -/
theorem Store.readAt_valid (st : Store) (pos : Fin 82) :
    ((st.readAt pos).word pos).valid = ((st.word pos).valid && !(st.word pos).broken pos) := by
  unfold Store.readAt Store.brokenAt
  cases hv : (st.word pos).valid with
  | false => simp [hv]
  | true =>
    cases hb : (st.word pos).broken pos with
    | true => simp [word_invalidate]
    | false =>
      simp only [Bool.and_false, Bool.false_eq_true, if_false, Bool.true_and, Bool.not_false]
      split
      · rw [word_correct, if_pos rfl, hv]
      · exact hv

theorem Store.readAt_uncorrectable (st : Store) (pos : Fin 82) :
    (st.readAt pos).uncorrectable = if st.brokenAt pos then bumpByte st.uncorrectable else st.uncorrectable := by
  unfold Store.readAt
  split
  · rfl
  · split <;> rfl

/-! ## Several reads -/

/-- A word not among those read is as it was. -/
theorem Store.word_readAll_of_not_mem {st : Store} {l : List (Fin 82)} {q : Fin 82} (h : q ∉ l) :
    (st.readAll l).word q = st.word q := by
  induction l generalizing st with
  | nil => rfl
  | cons pos l ih =>
    rw [List.mem_cons, not_or] at h
    exact (ih h.2).trans (st.word_readAt_ne h.1)

theorem Store.readAll_fields (st : Store) (l : List (Fin 82)) (q : Fin 82) :
    ((st.readAll l).word q).fields = (st.word q).fields := by
  induction l generalizing st with
  | nil => rfl
  | cons pos l ih => exact (ih _).trans (st.readAt_fields pos q)

theorem Store.brokenAt_readAt (st : Store) {pos q : Fin 82} (h : q ≠ pos) : (st.readAt pos).brokenAt q = st.brokenAt q := by
  rw [brokenAt, st.word_readAt_ne h, brokenAt]

/-- The words found uncorrectable are judged as they stood before the reads, each being read once. -/
theorem Store.filter_brokenAt_readAt (st : Store) {pos : Fin 82} {l : List (Fin 82)} (h : pos ∉ l) :
    l.filter (st.readAt pos).brokenAt = l.filter st.brokenAt :=
  List.filter_congr fun _ hq => st.brokenAt_readAt fun e => h (e ▸ hq)

/-- R158: words read once each keep their valid marks but where found uncorrectable. -/
theorem Store.readAll_valid (st : Store) {l : List (Fin 82)} (hn : l.Nodup) (q : Fin 82) :
    ((st.readAll l).word q).valid = true ↔ (st.word q).valid = true ∧ ¬(q ∈ l ∧ (st.word q).broken q = true) := by
  induction l generalizing st with
  | nil => simp [Store.readAll]
  | cons pos l ih =>
    obtain ⟨hnot, hn⟩ := List.nodup_cons.1 hn
    by_cases h : q = pos
    · subst h
      rw [Store.readAll, word_readAll_of_not_mem hnot, readAt_valid]
      simp
    · rw [Store.readAll, ih _ hn, st.word_readAt_ne h]
      simp [h]

/-- R158: every word found uncorrectable is counted, up to 255. -/
theorem Store.readAll_uncorrectable (st : Store) {l : List (Fin 82)} (hn : l.Nodup) :
    (st.readAll l).uncorrectable = if l.filter st.brokenAt = [] then st.uncorrectable
      else min (st.uncorrectable + (l.filter st.brokenAt).length) 255 := by
  induction l generalizing st with
  | nil => rfl
  | cons pos l ih =>
    obtain ⟨hnot, hn⟩ := List.nodup_cons.1 hn
    rw [Store.readAll, ih _ hn, st.filter_brokenAt_readAt hnot, readAt_uncorrectable, List.filter_cons]
    cases st.brokenAt pos with
    | false => rfl
    | true =>
      rw [if_pos rfl, if_pos rfl, if_neg (List.cons_ne_nil _ _), List.length_cons, bumpByte]
      split
      · rename_i h
        rw [h]
        rfl
      · omega

/-! ## The part after reads that trip no motor -/

theorem Part.tableTrip_idle (p : Part) (pos : Fin 82) {m : Slot} (h : (p.motor m).slot.state ≠ .running) :
    p.tableTrip pos m = p := by
  refine if_neg ?_
  simpa [Part.running] using h

/-- R158: a word found uncorrectable with no motor RUNNING. -/
theorem Part.uncorrectable_idle {p : Part} (pos : Fin 82) (h : ∀ k, (p.motor k).slot.state ≠ .running) :
    p.uncorrectable pos = { p with store := p.store.invalidate pos, outbox := p.outbox ++ [tableNotice pos] } := by
  let x : Part := { p with store := p.store.invalidate pos, outbox := p.outbox ++ [tableNotice pos] }
  have idle : ∀ k, x.tableTrip pos k = x := fun k => x.tableTrip_idle pos (h k)
  have hx : (p.modStore (·.invalidate pos)).notice (.tableInvalid (regionIndex pos).1 (regionIndex pos).2) = x := rfl
  rw [Part.uncorrectable, hx]
  split
  · rw [Part.eachMotor, idle, idle, idle]
  · rfl
  · exact idle _

/-- R157, R158: a read that does not find its word uncorrectable, or finds no motor RUNNING. -/
theorem Part.readWord_store {p : Part} {pos : Fin 82}
    (h : (∀ k, (p.motor k).slot.state ≠ .running) ∨ p.store.brokenAt pos = false) :
    (p.readWord pos).2 = { p with
      store := p.store.readAt pos, outbox := p.outbox ++ ([pos].filter p.store.brokenAt).map tableNotice } := by
  cases hb : p.store.brokenAt pos with
  | true =>
    obtain ⟨hv, hk⟩ := Bool.and_eq_true_iff.1 hb
    have hr : p.readWord pos = (none, p.uncorrectable pos) := by simp [Part.readWord, hv, hk]
    rw [hr, Part.uncorrectable_idle pos (h.resolve_right (by simp [hb])), Store.readAt, if_pos hb, List.filter_cons_of_pos hb]
    rfl
  | false =>
    rw [List.filter_cons_of_neg (by simp [hb]), List.filter_nil, List.map_nil, List.append_nil, Store.readAt, hb]
    cases hv : (p.store.word pos).valid with
    | false => simp [Part.readWord, hv]
    | true =>
      have hk : (p.store.word pos).broken pos = false := by simpa [Store.brokenAt, hv] using hb
      cases hf : (p.store.word pos).flips <;> simp [Part.readWord, hv, hk, hf, Part.modStore]

/-- The part after words have been read once each, no motor tripping by them (R157, R158). -/
def Part.readThrough (p : Part) (l : List (Fin 82)) : Part :=
  { p with store := p.store.readAll l, outbox := p.outbox ++ (l.filter p.store.brokenAt).map tableNotice }

@[simp] theorem Part.readThrough_store (p : Part) (l : List (Fin 82)) : (p.readThrough l).store = p.store.readAll l := rfl

@[simp] theorem Part.readThrough_motor (p : Part) (l : List (Fin 82)) (k : Slot) : (p.readThrough l).motor k = p.motor k := rfl

/-- R157, R158: words read once each, none of them found uncorrectable or no motor RUNNING. -/
theorem Part.readWords_store {p : Part} {l : List (Fin 82)} (hn : l.Nodup)
    (h : (∀ k, (p.motor k).slot.state ≠ .running) ∨ ∀ pos ∈ l, p.store.brokenAt pos = false) :
    p.readWords l = p.readThrough l := by
  induction l generalizing p with
  | nil => simp [Part.readWords, Part.readThrough, Store.readAll]
  | cons pos l ih =>
    obtain ⟨hnot, hn⟩ := List.nodup_cons.1 hn
    have head := Part.readWord_store (h.imp_right fun k => k pos List.mem_cons_self)
    have rest : (∀ k, (p.motor k).slot.state ≠ .running) ∨ ∀ q ∈ l, (p.store.readAt pos).brokenAt q = false :=
      h.imp_right fun k q hq => by
        have hne : q ≠ pos := fun e => hnot (e ▸ hq)
        rw [p.store.brokenAt_readAt hne]
        exact k q (List.mem_cons_of_mem _ hq)
    have tail := ih (p := { p with
      store := p.store.readAt pos, outbox := p.outbox ++ ([pos].filter p.store.brokenAt).map tableNotice }) hn rest
    rw [Part.readWords, head, tail]
    simp only [Part.readThrough, p.store.filter_brokenAt_readAt hnot, List.append_assoc, ← List.map_append, ← List.filter_append]
    rfl

/-- Words of which none is broken: nothing but corrections. -/
theorem Part.readWords_unbroken {p : Part} {l : List (Fin 82)} (hn : l.Nodup) (h : p.store.WholeAt l) :
    p.readWords l = { p with store := p.store.readAll l } ∧ p.store.Corrected (p.store.readAll l) := by
  have hb : ∀ pos ∈ l, p.store.brokenAt pos = false := fun pos hp => by
    cases hv : (p.store.word pos).valid with
    | false => simp [Store.brokenAt, hv]
    | true => simp [Store.brokenAt, hv, h pos hp hv]
  have hr := Part.readWords_store hn (.inr hb)
  rw [Part.readThrough, List.filter_eq_nil_iff.2 fun pos hp => by simp [hb pos hp], List.map_nil, List.append_nil] at hr
  obtain ⟨st, hc, hst⟩ := Part.readWords_whole l p h
  have he : p.store.readAll l = st := congrArg Part.store (hr.symm.trans hst)
  exact ⟨hr, he ▸ hc⟩

/-! ## The records of a motor -/

theorem motorRecords_nodup (m : Slot) : (motorRecords m).Nodup := by cases m <;> decide

theorem Store.motorValid_iff (st : Store) (m : Slot) :
    st.motorValid m = true ↔ ∀ pos ∈ motorRecords m, (st.word pos).valid = true := by
  simp only [Store.motorValid, Store.recordValid, Bool.and_eq_true, List.all_eq_true, motorRecords, List.mem_append]
  exact ⟨fun ⟨⟨h1, h2⟩, h3⟩ pos h => h.elim (fun h => h.elim (h1 pos) (h2 pos)) (h3 pos),
    fun h => ⟨⟨fun pos hp => h pos (.inl (.inl hp)), fun pos hp => h pos (.inl (.inr hp))⟩, fun pos hp => h pos (.inr hp)⟩⟩

theorem Store.motorValid_false_iff (st : Store) (m : Slot) :
    (!st.motorValid m) = true ↔ ∃ pos ∈ motorRecords m, (st.word pos).valid = false := by
  rw [Bool.not_eq_true', ← Bool.not_eq_true, st.motorValid_iff]
  simp

theorem Store.Corrected.motorValid {a b : Store} (h : a.Corrected b) (m : Slot) : b.motorValid m = a.motorValid m := by
  simp only [Store.motorValid, Store.recordValid_corrected h]

theorem Store.Corrected.profileWord {a b : Store} (h : a.Corrected b) (m : Slot) (k : Nat) :
    b.profileWord m k = a.profileWord m k := h.fields _

theorem Store.Corrected.consistent {a b : Store} (h : a.Corrected b) (m : Slot) : b.consistent m = a.consistent m := by
  simp only [Store.consistent, h.profileWord, Store.fieldsOf, h.fields]

theorem Store.Corrected.gateCopies {a b : Store} (h : a.Corrected b) (m : Slot) : b.gateCopies m = a.gateCopies m := by
  simp only [Store.gateCopies, h.profileWord]

/-! ## ARM (R18, R20) -/

/-- R20: ARM with no word uncorrectable. -/
theorem Part.armOff_unbroken {p : Part} {m : Slot} (h : p.store.WholeAt (motorRecords m)) :
    p.armOff m =
      if ∃ pos ∈ motorRecords m, (p.store.word pos).valid = false then
        (.tableInvalid, { p with store := p.store.readAll (motorRecords m) })
      else if p.tb.p ≤ field (p.store.profileWord m 1) 0 then
        (.refusedField, { p with store := p.store.readAll (motorRecords m) })
      else if p.store.consistent m = false then
        (.planMismatch, { p with store := p.store.readAll (motorRecords m) })
      else
        (.ok, { p with
          store := p.store.readAll (motorRecords m)
          motors := p.motors.set m { p.motor m with slot := { (p.motor m).slot with
            state := .ready, copies := some (p.store.gateCopies m) } } }) := by
  obtain ⟨hr, hc⟩ := Part.readWords_unbroken (motorRecords_nodup m) h
  generalize p.store.readAll (motorRecords m) = st at hr hc ⊢
  simp only [Part.armOff, hr, hc.motorValid, hc.profileWord, hc.consistent, hc.gateCopies, p.store.motorValid_false_iff,
    Bool.not_eq_true']
  rfl

/-- R19: a gated motor command is acted on as any other while the link is not DEGRADED. -/
theorem Part.arm_cmd {q : Part} {n : BitVec 4} {m : Slot} {errors : Nat} (he : errors < 128) (hn : n.toNat = m.toNat)
    (hs : (q.motor m).slot.state = .off) : q.motorCmd n (actsDegraded errors) true Part.doArm =
      (((q.armOff m).1, [byte ((q.armOff m).2.motor m).slot.state.num]), (q.armOff m).2) := by
  have ha : Part.doArm m q = q.armOff m := by simp only [Part.doArm, hs]
  rw [q.motorCmd_acts Part.doArm hn (by rw [actsDegraded_of_lt he]; rfl) (by rw [hs]; simp), ha]

theorem exec_arm {s : State} {tag : Byte} {n : BitVec 4} : exec (.arm tag n) s =
    .next { s with part := s.part.takeRequest tag 3#8 fun d r => r.motorCmd n d true Part.doArm } := rfl

/-- R166, R167: ARM where it touches its motor and the store alone. -/
theorem Part.arm_answered {s : State} (tag : Byte) {n : BitVec 4} {m : Slot} {code : ReplyCode} {motors : Triple Motor} {st : Store}
    (h : s.part.Serving 1) (he : s.part.link.errors < 128) (hn : n.toNat = m.toNat) (hs : (s.part.motor m).slot.state = .off)
    (ha : ∀ u, (s.part.asServed u s.part.transferEnded.free).armOff m =
      (code, { s.part.asServed u s.part.transferEnded.free with motors := motors, store := st }))
    (hq : ∀ k, (motors.get k).scheds = (s.part.motor k).scheds) :
    exec (.arm tag n) s = .next { s with part := { s.part.replied ⟨tag, 3#8, code, [byte (motors.get m).slot.state.num]⟩ with
      store := st, motors := motors } } := by
  have ht := Part.takeRequest_effect tag 3#8 (fun d r => r.motorCmd n d true Part.doArm)
    (code, [byte (motors.get m).slot.state.num]) motors st h (fun u => by
      rw [Part.arm_cmd (q := s.part.asServed u s.part.transferEnded.free) he hn hs, ha]
      rfl) hq
  exact exec_arm.trans (congrArg (fun p => Host.Outcome.next { s with part := p }) ht)

/-- R20, R158: ARM with a word found uncorrectable, and no motor RUNNING. -/
theorem Part.armOff_broken {p : Part} {m : Slot} (hi : ∀ k, (p.motor k).slot.state ≠ .running)
    (hb : ∃ pos ∈ motorRecords m, (p.store.word pos).valid = true ∧ (p.store.word pos).broken pos = true) :
    p.armOff m = (.tableInvalid, p.readThrough (motorRecords m)) := by
  obtain ⟨pos, hp, -, hk⟩ := hb
  have hno : (!(p.readThrough (motorRecords m)).store.motorValid m) = true := by
    rw [Part.readThrough_store, Store.motorValid_false_iff]
    exact ⟨pos, hp, Bool.eq_false_iff.2 fun h => ((p.store.readAll_valid (motorRecords_nodup m) pos).1 h).2 ⟨hp, hk⟩⟩
  simp only [Part.armOff, Part.readWords_store (motorRecords_nodup m) (.inl hi), hno, if_true]

theorem Part.readThrough_readyFrames {p : Part} (hq : p.Quiet) (l : List (Fin 82)) : (p.readThrough l).readyFrames = [] := by
  have hr : ∀ k, (p.motor k).scheds.ready = [] := fun k => Schedules.ready_quiet _ (hq.handed k)
  simp [Part.readyFrames, Ix3.all, hr]

/-- R157, R158: reads that found words uncorrectable and tripped no motor, with the frames of the command joined. -/
theorem Part.readThrough_foundBroken {p : Part} (u v : Upstream) (n : Nat) {l : List (Fin 82)} {after : List FrameBody}
    (hn : l.Nodup) (hq : p.Quiet)
    (hj : p.up.JoinedBy v (((p.asServed u n).readThrough l).gather.1 ++ after)) :
    p.FoundBroken { ((p.asServed u n).readThrough l).gather.2 with up := v } l after where
  fields pos := p.store.readAll_fields l pos
  marks pos := p.store.readAll_valid hn pos
  counts := p.store.readAll_uncorrectable hn
  frames := by
    refine ⟨_, (Part.gather_perm _).trans ?_, hj⟩
    have ho : ((p.asServed u n).readThrough l).outbox = p.outbox ++ (l.filter p.store.brokenAt).map tableNotice := rfl
    rw [Part.joining, Part.readThrough_readyFrames (hq.asServed u n), List.append_nil, ho, hq.outbox, List.nil_append, List.map_map]
    exact .refl _

/-- Settles O49: `armOff_broken`, and `armOff_unbroken` check by check. -/
theorem armTakesTheGateCopies : Obligations.ArmTakesTheGateCopies := by
  intro s tag n m h he hn hs
  have state : ∀ u n, ((s.part.asServed u n).motor m).slot.state = .off := fun _ _ => hs
  refine ⟨fun hq hi hb => ?_, ?_⟩
  · have harm : ∀ u, (s.part.asServed u s.part.transferEnded.free).motorCmd n (actsDegraded s.part.link.errors) true Part.doArm =
        ((.tableInvalid, [0#8]), (s.part.asServed u s.part.transferEnded.free).readThrough (motorRecords m)) := fun u => by
      rw [Part.arm_cmd he hn (state u _), Part.armOff_broken (p := s.part.asServed u _) hi hb,
        Part.readThrough_motor, state]
      rfl
    obtain ⟨u, v, -, ht, hj⟩ := s.part.takeRequest_joined tag 3#8 (fun d r => r.motorCmd n d true Part.doArm) h.zero
      fun u => by rw [harm]; rfl
    rw [harm] at ht hj
    have hexec : exec (.arm tag n) s = .next { s with part :=
        { ((s.part.asServed u s.part.transferEnded.free).readThrough (motorRecords m)).gather.2 with up := v } } :=
      exec_arm.trans (congrArg (fun p => Host.Outcome.next { s with part := p }) ht)
    refine ⟨_, hexec, rfl, ?_, rfl, Part.readThrough_foundBroken u v _ (motorRecords_nodup m) hq hj⟩
    exact Triple.ext_get fun k => (Part.gather_handsOn _ v).motor_same (hq.handed k)
  · intro hw answers q w
    have answer : ∀ (code : ReplyCode) (motors : Triple Motor),
        (∀ u, (s.part.asServed u s.part.transferEnded.free).armOff m = (code,
          { s.part.asServed u s.part.transferEnded.free with motors := motors, store := s.part.store.readAll (motorRecords m) })) →
        (∀ k, (motors.get k).scheds = (s.part.motor k).scheds) → answers code [byte (motors.get m).slot.state.num] motors :=
      fun code motors ha hq => ⟨_, (Part.readWords_unbroken (motorRecords_nodup m) hw).2, Part.arm_answered tag h he hn hs ha hq⟩
    have arm := fun u => Part.armOff_unbroken (p := s.part.asServed u s.part.transferEnded.free) (m := m) hw
    have same : byte (s.part.motors.get m).slot.state.num = 0#8 := by
      rw [show (s.part.motors.get m).slot.state = .off from hs]
      rfl
    rw [ite_prop_iff_and, ite_prop_iff_and, ite_prop_iff_and]
    refine ⟨fun h1 => ?_, fun h1 => ⟨fun h2 => ?_, fun h2 => ⟨fun h3 => ?_, fun h3 => ?_⟩⟩⟩
    · rw [← same]
      exact answer _ _ (fun u => (arm u).trans (if_pos h1)) fun _ => rfl
    · rw [← same]
      exact answer _ _ (fun u => (arm u).trans ((if_neg h1).trans (if_pos h2))) fun _ => rfl
    · rw [← same]
      exact answer _ _ (fun u => (arm u).trans ((if_neg h1).trans ((if_neg h2).trans (if_pos h3)))) fun _ => rfl
    · have ready := answer .ok (s.part.motors.set m { q with slot := { q.slot with
          state := .ready, copies := some (s.part.store.gateCopies m) } })
        (fun u => (arm u).trans ((if_neg h1).trans ((if_neg h2).trans (if_neg h3)))) (s.part.scheds_set m _ rfl)
      rw [Triple.get_set_self] at ready
      exact ready

end Sys2Proof.Machine
end

section
/-! The bounds of R39, R130, R164 and R165: what is bounded, and the operations that the blocks share. -/

namespace Sys2Proof.Machine

/-! ## The bounds -/

/-- R39. -/
def Motor.InBounds (q : Motor) : Prop := q.setq.recs.length ≤ 3

/-- R164, R165. -/
def Link.InBounds (l : Link) : Prop := l.errors ≤ 256 ∧ l.recovery < 64

/-- The bounds of R39, R130, R164 and R165, block by block: they hold at every instant within a command too. -/
def Part.InBounds (p : Part) : Prop := p.up.queue.length ≤ 8 ∧ p.link.InBounds ∧ ∀ m, (p.motor m).InBounds

theorem Part.bounded_iff (p : Part) : p.Bounded ↔ p.InBounds :=
  ⟨fun h => ⟨h.general, ⟨h.errors, h.recovery⟩, h.setpoints⟩, fun ⟨hq, ⟨he, hr⟩, hm⟩ => ⟨hq, hm, he, hr⟩⟩

theorem Part.InBounds.queue {p : Part} (h : p.InBounds) : p.up.queue.length ≤ 8 := h.1

theorem Part.InBounds.link {p : Part} (h : p.InBounds) : p.link.InBounds := h.2.1

theorem Part.InBounds.motor {p : Part} (h : p.InBounds) (m : Slot) : (p.motor m).InBounds := h.2.2 m

/-- An operation that answers leaves a part within its bounds, whatever it answers. -/
theorem Part.InBounds.of_eq {α : Type} {r : α × Part} {a : α} {t : Part} (h : r.2.InBounds) (e : r = (a, t)) :
    t.InBounds := by
  rw [e] at h
  exact h

theorem Part.InBounds.modMotor {p : Part} (h : p.InBounds) (m : Slot) {f : Motor → Motor} (hf : (f (p.motor m)).InBounds) :
    (p.modMotor m f).InBounds := by
  refine ⟨h.queue, h.link, fun k => ?_⟩
  by_cases hk : k = m
  · rwa [hk, Part.modMotor_motor_self]
  · rw [Part.modMotor_motor_ne p f hk]
    exact h.motor k

/-- A change of a motor that leaves its queue's records alone. -/
theorem Part.InBounds.modMotorSame {p : Part} (h : p.InBounds) (m : Slot) {f : Motor → Motor}
    (hf : (f (p.motor m)).setq.recs = (p.motor m).setq.recs := by rfl) : (p.modMotor m f).InBounds :=
  h.modMotor m (by rw [Motor.InBounds, hf]; exact h.motor m)

theorem Part.InBounds.mapMotors {p : Part} (h : p.InBounds) (f : Motor → Motor) (hf : ∀ q : Motor, q.InBounds → (f q).InBounds) :
    ({ p with motors := p.motors.map f } : Part).InBounds := by
  refine ⟨h.queue, h.link, fun k => ?_⟩
  simp only [Part.motor, Triple.get_map]
  exact hf _ (h.motor k)

theorem Part.InBounds.modSampler {p : Part} (h : p.InBounds) {f : Sampler → Sampler} : (p.modSampler f).InBounds := h

theorem Part.InBounds.notice {p : Part} (h : p.InBounds) {n : Notice} : (p.notice n).InBounds := h

theorem Part.InBounds.modLink {p : Part} (h : p.InBounds) {f : Link → Link} (hf : (f p.link).InBounds) : (p.modLink f).InBounds :=
  ⟨h.queue, hf, h.motor⟩

theorem Part.InBounds.modUp {p : Part} (h : p.InBounds) {f : Upstream → Upstream} (hf : (f p.up).queue.length ≤ 8) :
    (p.modUp f).InBounds := ⟨hf, h.link, h.motor⟩

theorem Part.InBounds.eachMotor {p : Part} {f : Slot → Part → Part} (h : p.InBounds)
    (hf : ∀ m q, q.InBounds → (f m q).InBounds) : (p.eachMotor f).InBounds := hf _ _ (hf _ _ (hf _ _ h))

/-! ## The general queue (R130, R136) -/

theorem Upstream.countBuilt_queue (u : Upstream) (b : FrameBody) : (u.countBuilt b).queue = u.queue := by cases b <;> rfl

/-- R130: a frame that joins a full queue displaces one or is lost. -/
theorem Upstream.join_queue_length (u : Upstream) (b : FrameBody) (h : u.queue.length ≤ 8) : (u.join b).queue.length ≤ 8 := by
  unfold Upstream.join
  simp only
  split
  · rename_i hroom
    simpa using Nat.succ_le_of_lt hroom
  · split
    · rename_i old hold
      have hmem : old ∈ (u.countBuilt b).queue := List.mem_of_find?_eq_some hold
      have hshort : ((u.countBuilt b).queue.filter (·.id != old.id)).length < (u.countBuilt b).queue.length :=
        List.length_filter_lt_length_iff_exists.2 ⟨old, hmem, by simp⟩
      rw [u.countBuilt_queue] at hshort
      simp only [Upstream.append_queue, Upstream.setDropped, List.length_append, List.length_singleton, u.countBuilt_queue]
      omega
    · cases b <;> exact h

theorem Upstream.foldl_join_queue_length (l : List FrameBody) (u : Upstream) (h : u.queue.length ≤ 8) :
    (l.foldl Upstream.join u).queue.length ≤ 8 := by
  induction l generalizing u with
  | nil => exact h
  | cons b l ih => exact ih _ (u.join_queue_length b h)

theorem Part.InBounds.joinAll {p : Part} (h : p.InBounds) (l : List FrameBody) : (p.joinAll l).InBounds := by
  rw [Part.joinAll_up]
  exact h.modUp (Upstream.foldl_join_queue_length l _ h.queue)

theorem Part.InBounds.gather {p : Part} (h : p.InBounds) : p.gather.2.InBounds := h.mapMotors _ fun _ hq => hq

theorem Part.InBounds.settle {p : Part} (h : p.InBounds) : p.settle.InBounds := h.gather.joinAll _

/-! ## Stops and trips -/

theorem Part.InBounds.cancelUnfrozen {p : Part} (h : p.InBounds) (m : Slot) : (p.cancelUnfrozen m).InBounds :=
  (h.modMotorSame m).modSampler

/-- R28, R46: a motor that leaves RUNNING or START_PENDING has its queue flushed. -/
theorem Part.InBounds.leaveRun {p : Part} (h : p.InBounds) (m : Slot) (st : MotorState) (c : Option StopCause) :
    (p.leaveRun m st c).InBounds := (h.cancelUnfrozen m).modMotor m (Nat.zero_le 3)

theorem Motor.tripped_setq (q : Motor) (e : TripEvent) (now : Tick) : (q.tripped e now).setq = q.setq := by
  simp only [Motor.tripped, Motor.tripAction]
  split <;> rfl

theorem Part.InBounds.safeStop {p : Part} (h : p.InBounds) (c : StopCause) (m : Slot) : (p.safeStop c m).InBounds := by
  rcases p.driven_cases m with hd | ⟨hr, hs⟩
  · rw [p.safeStop_driven c m hd]
    exact ((h.leaveRun m .safeStop (some c)).modMotorSame m).notice
  · rwa [p.safeStop_idle c m hr hs]

theorem Part.InBounds.stopAll {p : Part} (h : p.InBounds) (c : StopCause) : (p.stopAll c).InBounds :=
  h.eachMotor fun m _ hq => hq.safeStop c m

theorem Part.InBounds.reportFault {p : Part} (h : p.InBounds) (m : Slot) : (p.reportFault m).InBounds := by
  unfold Part.reportFault
  split <;> exact h

theorem Part.InBounds.trip {p : Part} (h : p.InBounds) (e : TripEvent) (m : Slot) : (p.trip e m).InBounds := by
  have tripped : ∀ {q : Part}, q.InBounds → ((q.modMotor m (·.tripped e p.now)).reportFault m).InBounds := fun hq =>
    (hq.modMotorSame m (by rw [Motor.tripped_setq])).reportFault m
  have left := tripped (h.leaveRun m .tripped none)
  unfold Part.trip
  split
  · exact left
  · split
    · exact left
    · exact h
  · split
    · exact tripped h
    · exact h
  · split
    · exact (h.modMotorSame m).reportFault m
    · exact h
  all_goals exact h

theorem Part.InBounds.tableTrip {p : Part} (h : p.InBounds) (pos : Fin 82) (m : Slot) : (p.tableTrip pos m).InBounds := by
  unfold Part.tableTrip
  split
  · exact h.trip _ m
  · exact h

/-! ## Reads of the store -/

theorem Part.InBounds.uncorrectable {p : Part} (h : p.InBounds) (pos : Fin 82) : (p.uncorrectable pos).InBounds := by
  have noticed : ((p.modStore (·.invalidate pos)).notice (.tableInvalid (regionIndex pos).1 (regionIndex pos).2)).InBounds := h
  unfold Part.uncorrectable
  simp only
  split
  · exact noticed.eachMotor fun m _ hq => hq.tableTrip pos m
  · exact noticed
  · exact noticed.tableTrip pos _

theorem Part.InBounds.readWord {p : Part} (h : p.InBounds) (pos : Fin 82) : (p.readWord pos).2.InBounds := by
  unfold Part.readWord
  simp only
  split
  · exact h
  · split
    · exact h.uncorrectable pos
    · split <;> exact h

theorem Part.InBounds.readFor {p : Part} (h : p.InBounds) (m : Slot) (pos : Fin 82) : (p.readFor m pos).2.InBounds := by
  unfold Part.readFor
  split
  · exact (h.readWord pos).of_eq ‹_›
  · exact ((h.readWord pos).of_eq ‹_›).tableTrip pos m

theorem Part.InBounds.readAllFor {p : Part} (h : p.InBounds) (m : Slot) (l : List (Fin 82)) :
    (p.readAllFor m l).2.InBounds := by
  induction l generalizing p with
  | nil => exact h
  | cons pos l ih =>
    unfold Part.readAllFor
    split
    · exact (h.readFor m pos).of_eq ‹_›
    · rename_i hr
      have rest := ih ((h.readFor m pos).of_eq hr)
      split <;> exact rest.of_eq ‹_›

theorem Part.InBounds.readWords {p : Part} (h : p.InBounds) (l : List (Fin 82)) : (p.readWords l).InBounds := by
  induction l generalizing p with
  | nil => exact h
  | cons pos l ih => exact ih (h.readWord pos)

theorem Part.InBounds.readConfig {p : Part} (h : p.InBounds) (ks : List Nat) : (p.readConfig ks).2.InBounds := by
  unfold Part.readConfig
  simp only
  split <;> exact h.readWords _

end Sys2Proof.Machine
end

section
/-! The bounds of R39, R130, R164 and R165 along the commands of a motor: commutations, samples, valleys, edges. -/

namespace Sys2Proof.Machine

/-! ## Commutations (chapter 5) -/

theorem Part.InBounds.modRun {p : Part} (h : p.InBounds) (m : Slot) (f : SeqRun → SeqRun) : (p.modRun m f).InBounds :=
  h.modMotorSame m

theorem Motor.commutateIn_setq (q : Motor) (pp : Nat) (now : Tick) (c : Carrier) (r : SeqRun) (kind : CommKind) (late : Bool)
    (next : Option Nat) : (q.commutateIn pp now c r kind late next).setq = q.setq := by
  unfold Motor.commutateIn
  simp only
  split <;> rfl

theorem Part.InBounds.makeCommutation {p : Part} (h : p.InBounds) (m : Slot) (kind : CommKind) (late postponed : Bool)
    (next : Option Nat) : (p.makeCommutation m kind late postponed next).InBounds := by
  unfold Part.makeCommutation
  split
  · refine (h.cancelUnfrozen m).modMotorSame m ?_
    simp only
    split
    · rfl
    · rw [Motor.commutateIn_setq]
      rfl
  · exact h

theorem Part.InBounds.rampInterval {p : Part} (h : p.InBounds) (m : Slot) (t : Nat) : (p.rampInterval m t).2.InBounds := by
  unfold Part.rampInterval
  split <;> exact (h.readAllFor m _).of_eq ‹_›

theorem Part.InBounds.makeWithInterval {p : Part} (h : p.InBounds) (m : Slot) (kind : CommKind) (late postponed : Bool) :
    (p.makeWithInterval m kind late postponed).InBounds := by
  unfold Part.makeWithInterval
  split
  · split
    · exact ((h.rampInterval m _).of_eq ‹_›).makeCommutation m _ _ _ _
    · exact (h.rampInterval m _).of_eq ‹_›
  · exact h.makeCommutation m _ _ _ _

theorem Part.InBounds.commutate {p : Part} (h : p.InBounds) (m : Slot) (kind : CommKind) (late : Bool) :
    (p.commutate m kind late).InBounds := by
  unfold Part.commutate
  split
  · exact h.modMotorSame m
  · exact h.makeWithInterval m kind late false

theorem Part.InBounds.stall {p : Part} (h : p.InBounds) (m : Slot) (step : Fin 6) (count : Nat) :
    (p.stall m step count).InBounds := h.trip _ m

theorem Part.InBounds.rampAtHold {p : Part} (h : p.InBounds) (m : Slot) (step : Fin 6) (t confirm hold : Nat) :
    (p.rampAtHold m step t confirm hold).InBounds := by
  unfold Part.rampAtHold
  split
  · exact (h.readFor m _).of_eq ‹_›
  · have read := (h.readFor m _).of_eq ‹_›
    split
    · exact read.stall m step _
    · exact (read.modRun m _).commutate m _ _

theorem Part.InBounds.rampDue {p : Part} (h : p.InBounds) (m : Slot) : (p.rampDue m).InBounds := by
  unfold Part.rampDue
  split
  · split
    · split
      · exact (h.readFor m _).of_eq ‹_›
      · have read := (h.readFor m _).of_eq ‹_›
        split
        · exact read.rampAtHold m _ _ _ _
        · exact read.commutate m _ _
    all_goals exact h
  · exact h

theorem Part.InBounds.detectedDue {p : Part} (h : p.InBounds) (m : Slot) : (p.detectedDue m).InBounds := by
  unfold Part.detectedDue
  split
  · exact h.commutate m _ _
  · exact h

theorem Part.InBounds.timeoutDue {p : Part} (h : p.InBounds) (m : Slot) : (p.timeoutDue m).InBounds := by
  unfold Part.timeoutDue
  split
  · split
    · split
      · exact h.stall m _ _
      · exact ((h.modRun m _).modMotorSame m).commutate m _ _
    all_goals exact h
  · exact h

/-! ## Crossings (R77, R79, R83, R84) -/

theorem Part.InBounds.scheduleDetected {p : Part} (h : p.InBounds) (m : Slot) (tzc : Tick) (tStep adv : Nat) :
    (p.scheduleDetected m tzc tStep adv).InBounds := by
  unfold Part.scheduleDetected
  simp only
  split
  · exact h.commutate m _ _
  · split
    · exact h.modRun m _
    · exact (h.modMotorSame m).commutate m _ _

theorem Part.InBounds.handover {p : Part} (h : p.InBounds) (m : Slot) (t : Nat) (tzc : Tick) : (p.handover m t tzc).InBounds := by
  unfold Part.handover
  split
  · exact (h.readFor m _).of_eq ‹_›
  · exact (((h.readFor m _).of_eq ‹_›).modRun m _).scheduleDetected m _ _ _

theorem Part.InBounds.confirmCrossing {p : Part} (h : p.InBounds) (m : Slot) (t confirm hold : Nat) (tzc : Tick) :
    (p.confirmCrossing m t confirm hold tzc).InBounds := by
  unfold Part.confirmCrossing
  simp only
  split
  · exact ((h.modRun m _).readFor m _).of_eq ‹_›
  · have read := ((h.modRun m _).readFor m _).of_eq ‹_›
    split
    · exact read.handover m _ _
    · exact read

theorem Part.InBounds.closedCrossing {p : Part} (h : p.InBounds) (m : Slot) (tRef : Tick) (f : Nat) (tzc : Tick) :
    (p.closedCrossing m tRef f tzc).InBounds := by
  unfold Part.closedCrossing
  simp only
  split
  · exact (h.readAllFor m _).of_eq ‹_›
  · exact (((h.readAllFor m _).of_eq ‹_›).modRun m _).scheduleDetected m _ _ _

theorem Part.InBounds.actOnCrossing {p : Part} (h : p.InBounds) (m : Slot) (data : SubData) (early : Bool) (tzc : Tick) :
    (p.actOnCrossing m data early tzc).InBounds := by
  unfold Part.actOnCrossing
  split
  · split
    · exact h
    · exact h.confirmCrossing m _ _ _ _
  · exact h.closedCrossing m _ _ _
  · exact h

theorem Part.InBounds.useSample {p : Part} (h : p.InBounds) (m : Slot) (sched : Nat) (r : SeqRun) (se : Search) (x : Int)
    (at_ : Tick) : (p.useSample m sched r se x at_).InBounds := by
  have found : ∀ early, (p.crossingFound m sched early).InBounds := fun early => h.modMotorSame m
  unfold Part.useSample
  split
  · exact h.modRun m _
  · exact (found true).actOnCrossing m _ _ _
  · exact (found false).actOnCrossing m _ _ _

theorem Part.InBounds.judgeSample {p : Part} (h : p.InBounds) (m : Slot) (sched : Nat) (inStep : Bool) (at_ : Tick)
    (float bus : Code) : (p.judgeSample m sched inStep at_ float bus).InBounds := by
  unfold Part.judgeSample
  split
  · split
    · split
      · split
        · exact (h.readFor m _).of_eq ‹_›
        · have read := (h.readFor m _).of_eq ‹_›
          split
          · exact read.useSample m _ _ _ _ _
          · exact read
      · exact h
    · exact h
  · exact h

/-! ## Valleys (chapters 2 to 6) -/

/-- R40 to R42: the queue's decision only takes records out. -/
theorem SetQueue.decide_recs_length (l : List SetRec) (s : SetQueue) (period : Byte) :
    (s.decide period l).2.recs.length ≤ l.length := by
  induction l generalizing s with
  | nil => exact Nat.le_refl 0
  | cons r l ih =>
    unfold SetQueue.decide
    split
    · exact Nat.le_succ _
    · exact Nat.le_refl _
    · exact Nat.le_succ_of_le (ih _)

theorem Part.InBounds.valleySetpoint {p : Part} (h : p.InBounds) (m : Slot) (period : Byte) :
    (p.valleySetpoint m period).2.InBounds := by
  have decided : (p.modMotor m fun q =>
      { q with setq := ((p.motor m).setq.decide period (p.motor m).setq.recs).2 }).InBounds :=
    h.modMotor m (Nat.le_trans (SetQueue.decide_recs_length _ _ _) (h.motor m))
  unfold Part.valleySetpoint
  simp only
  split
  · split
    · exact (decided.readFor m _).of_eq ‹_›
    · have read := (decided.readFor m _).of_eq ‹_›
      split
      · exact read.safeStop .starved m
      · exact read
  · exact decided

theorem Part.InBounds.planSineDrive {p : Part} (h : p.InBounds) (m : Slot) (sense : Sense) (due : List PlanEntry) :
    (p.planSineDrive m sense due).2.InBounds := by
  unfold Part.planSineDrive
  simp only
  split
  · exact (h.readAllFor m _).of_eq ‹_›
  · exact ((h.readAllFor m _).of_eq ‹_›).modMotorSame m

theorem Part.InBounds.moveSubPhase {p : Part} (h : p.InBounds) (m : Slot) (n t : Nat) (dir : Direction) (step : Fin 6) :
    (p.moveSubPhase m n t dir step).2.InBounds := by
  unfold Part.moveSubPhase
  split
  · exact h
  · split
    · split
      · exact h
      · split
        · exact (h.readFor m _).of_eq ‹_›
        · exact ((h.readFor m _).of_eq ‹_›).modMotorSame m
    all_goals exact h

theorem Part.InBounds.planBlockDrive {p : Part} (h : p.InBounds) (m : Slot) (dir : Direction) (step : Fin 6) :
    (p.planBlockDrive m dir step).2.InBounds := by
  unfold Part.planBlockDrive
  simp only
  split
  · exact (h.readAllFor m _).of_eq ‹_›
  · rename_i ws _ hr
    have moved := ((h.readAllFor m _).of_eq hr).moveSubPhase m (recField ws 1 1) (recField ws 2 0) dir step
    split
    · exact moved.of_eq ‹_›
    · exact (moved.of_eq ‹_›).modMotorSame m

theorem Part.InBounds.makePostponed {p : Part} (h : p.InBounds) (m : Slot) : (p.makePostponed m).InBounds := by
  unfold Part.makePostponed
  split
  · exact h.makeWithInterval m _ _ _
  · exact h

theorem Part.InBounds.planDrive {p : Part} (h : p.InBounds) (m : Slot) (due : List PlanEntry) :
    (p.planDrive m due).2.InBounds := by
  have made := h.makePostponed m
  unfold Part.planDrive
  simp only
  split
  · exact made
  · split
    · exact (made.readFor m _).of_eq ‹_›
    · have read := (made.readFor m _).of_eq ‹_›
      split
      · exact read.planSineDrive m _ _
      · exact read.planBlockDrive m _ _

theorem Part.InBounds.readBusChannel {p : Part} (h : p.InBounds) (m : Slot) (due : List PlanEntry) :
    (p.readBusChannel m due).2.InBounds := by
  unfold Part.readBusChannel
  split
  · split <;> exact (h.readFor m _).of_eq ‹_›
  · exact h

theorem Part.InBounds.findWindows {p : Part} (h : p.InBounds) (m : Slot) (due : List PlanEntry) (d : DriveWindows) (len : Nat) :
    (p.findWindows m due d len).2.InBounds := by
  unfold Part.findWindows
  simp only
  split
  · exact (h.readAllFor m _).of_eq ‹_›
  · rename_i hr
    have read := ((h.readAllFor m _).of_eq hr).readBusChannel m due
    split <;> exact read.of_eq ‹_›

theorem Part.InBounds.joinRequest {p : Part} (h : p.InBounds) (m : Slot) (sc : Schedule) (r : Request) :
    (p.joinRequest m sc r).InBounds := by
  unfold Part.joinRequest
  split
  · exact h
  · exact h.modSampler.modMotorSame m

theorem Part.InBounds.joinAtValley {p : Part} (h : p.InBounds) (m : Slot) : (p.joinAtValley m).InBounds := by
  unfold Part.joinAtValley
  split
  · exact h
  · exact List.foldlRecOn _ _ h fun _ hq r _ => hq.joinRequest m _ r

theorem Motor.beginPeriod_recs (q : Motor) (p : Nat) (now : Tick) (id : Nat) (n : NewPeriod) :
    (q.beginPeriod p now id n).setq.recs = q.setq.recs := by
  simp only [Motor.beginPeriod, SetQueue.handFlags]
  split <;> rfl

theorem Part.InBounds.beginPeriod {p : Part} (h : p.InBounds) (m : Slot) (n : NewPeriod) : (p.beginPeriod m n).InBounds := by
  have numbered : ({ p with nextSched := p.nextSched + 1 } : Part).InBounds := h
  exact (numbered.modMotorSame m (Motor.beginPeriod_recs _ _ _ _ n)).joinAtValley m

theorem Part.InBounds.openPeriod {p : Part} (h : p.InBounds) (m : Slot) (period : Byte) : (p.openPeriod m period).InBounds := by
  have queue := h.valleySetpoint m period
  unfold Part.openPeriod
  split
  · exact queue.of_eq ‹_›
  · have plan := (queue.of_eq ‹_›).readAllFor m (RecordId.plan m).positions
    split
    · exact plan.of_eq ‹_›
    · rename_i ws _ hr
      have drive := (plan.of_eq hr).planDrive m ((planEntries ws).filter (·.due period))
      simp only
      split
      · exact drive.of_eq ‹_›
      · have windows := fun d len => (drive.of_eq ‹_›).findWindows m ((planEntries ws).filter (·.due period)) d len
        split
        · exact (windows _ _).of_eq ‹_›
        · exact ((windows _ _).of_eq ‹_›).beginPeriod m _

theorem Part.InBounds.openFirst {p : Part} (h : p.InBounds) (m : Slot) : (p.openFirst m).InBounds :=
  (h.modMotorSame m).openPeriod m _

theorem Part.InBounds.openNext {p : Part} (h : p.InBounds) (m : Slot) : (p.openNext m).InBounds := by
  unfold Part.openNext
  split
  · exact h
  · split
    · exact (h.leaveRun m _ _).modMotorSame m
    · exact h.openPeriod m _

/-! ## Edges and pending turn-ons -/

theorem Motor.makeEdges_setq (q : Motor) (now : Tick) : (q.makeEdges now).setq = q.setq := by
  unfold Motor.makeEdges
  split <;> rfl

end Sys2Proof.Machine
end

section
/-! The bounds of R39, R130, R164 and R165 along the other commands, and the step. -/

namespace Sys2Proof.Machine

/-! ## Sampling (chapter 7) and the supervisor -/

theorem Part.InBounds.joinPlaced {p : Part} (h : p.InBounds) (m : Slot) (entry : Fin 6) : (p.joinPlaced m entry).InBounds := by
  unfold Part.joinPlaced
  split
  · exact h.joinRequest m _ _
  · exact h

theorem Part.InBounds.freezeMotor {p : Part} (h : p.InBounds) (m : Slot) (id : Nat) (entry : Fin 6) (w : WaitItem) :
    (p.freezeMotor m id entry w).InBounds := by
  unfold Part.freezeMotor
  split
  · exact h.modSampler.modMotorSame m
  · exact h

theorem Part.InBounds.freezeBus {p : Part} (h : p.InBounds) : p.freezeBus.InBounds := by
  unfold Part.freezeBus
  split <;> exact h

theorem Part.InBounds.grantHead {p : Part} (h : p.InBounds) : p.grantHead.InBounds := by
  unfold Part.grantHead
  split
  · exact h
  · split
    · exact h.freezeMotor _ _ _ _
    · exact h.freezeBus

theorem Part.InBounds.missDeadline {p : Part} (h : p.InBounds) (r : Waiter) : (p.missDeadline r).InBounds := by
  unfold Part.missDeadline
  split
  · exact h
  · split
    · exact h
    · exact h.modSampler.modMotorSame _

theorem Part.InBounds.checkCurrents {p : Part} (h : p.InBounds) (m : Slot) (period : Byte) (r : Request) :
    (p.checkCurrents m period r).InBounds := by
  unfold Part.checkCurrents
  split
  · split
    · exact (h.readFor m _).of_eq ‹_›
    · have read := (h.readFor m _).of_eq ‹_›
      split
      · exact read.trip _ m
      · exact read
  · exact h

theorem Part.InBounds.offerSample {p : Part} (h : p.InBounds) (m : Slot) (id : Nat) (r : Request) :
    (p.offerSample m id r).InBounds := by
  unfold Part.offerSample
  split
  · exact h.judgeSample m _ _ _ _ _
  · exact h

theorem Part.InBounds.completeRequest {p : Part} (h : p.InBounds) (m : Slot) (sc : Schedule) (r : Request) :
    (p.completeRequest m sc r).InBounds := ((h.modMotorSame m).checkCurrents m _ _).offerSample m _ _

theorem Part.InBounds.giveCode {p : Part} (h : p.InBounds) (m : Slot) (id : Nat) (entry : Fin 6) (code : Code) :
    (p.giveCode m id entry code).InBounds := by
  have given : (p.modMotor m fun q =>
      q.modScheds (·.modReq id entry fun r => { r with codes := r.codes ++ [code] })).InBounds := h.modMotorSame m
  unfold Part.giveCode
  simp only
  split
  · split
    · exact given.completeRequest m _ _
    · exact given
  · exact given

theorem Part.InBounds.setUv {p : Part} (h : p.InBounds) (below : Bool) (c : Code) : (p.setUv below c).InBounds := by
  unfold Part.setUv
  split <;> exact h

theorem Part.InBounds.setOv {p : Part} (h : p.InBounds) (high : Bool) (c : Code) : (p.setOv high c).InBounds := by
  unfold Part.setOv
  split <;> exact h

theorem Part.InBounds.stopWhere {p : Part} (h : p.InBounds) (b : Bool) (cause : StopCause) :
    (if b then p.stopAll cause else p).InBounds := by
  split
  · exact h.stopAll cause
  · exact h

theorem Part.InBounds.judgeBus {p : Part} (h : p.InBounds) (c : Code) : (p.judgeBus c).InBounds := by
  unfold Part.judgeBus
  split
  · exact (h.readConfig _).of_eq ‹_›
  · exact (((((h.readConfig _).of_eq ‹_›).setUv _ c).setOv _ c).stopWhere _ _).stopWhere _ _

theorem Part.InBounds.converted {p : Part} (h : p.InBounds) (code : Code) : (p.converted code).InBounds := by
  unfold Part.converted
  split
  · exact h
  · simp only
    split
    · exact h.modSampler.giveCode _ _ _ _
    · exact h.modSampler.modSampler.judgeBus code

theorem Part.InBounds.placeBus {p : Part} (h : p.InBounds) : p.placeBus.InBounds := by
  unfold Part.placeBus
  split <;> exact ((h.readConfig _).of_eq ‹_›).modSampler

theorem Part.InBounds.busPlace {p : Part} (h : p.InBounds) : p.busPlace.InBounds := by
  unfold Part.busPlace
  split
  · split
    · exact ((h.readConfig _).of_eq ‹_›).modSampler
    · have read := (h.readConfig _).of_eq ‹_›
      split
      · exact read.placeBus
      · exact read.modSampler
  · exact h.placeBus
  · exact h

/-! ## The cycle (chapter 1) -/

theorem Part.InBounds.modTb {p : Part} (h : p.InBounds) {f : Timebase → Timebase} : (p.modTb f).InBounds := h

theorem Part.InBounds.syncTrack {p : Part} (h : p.InBounds) : p.syncTrack.InBounds := by
  unfold Part.syncTrack
  split
  · exact ((h.readConfig _).of_eq ‹_›).modTb
  · have read := (h.readConfig _).of_eq ‹_›
    split
    · exact read.modTb
    · split
      · exact read.modTb
      · split
        · exact ((read.readConfig _).of_eq ‹_›).modTb
        · have read' := (read.readConfig _).of_eq ‹_›
          simp only
          split
          · exact read'.modTb
          · exact read'.modTb.notice

theorem Part.InBounds.turnCycle {p : Part} (h : p.InBounds) : p.turnCycle.InBounds := by
  have distributed : ∀ adj, (p.syncTrack.distribute adj).InBounds := fun adj =>
    h.syncTrack.mapMotors _ fun q hq => by split <;> exact hq
  exact distributed _

theorem Part.InBounds.scrub {p : Part} (h : p.InBounds) : p.scrub.InBounds := h.readWord _

theorem Part.InBounds.flip {p : Part} (h : p.InBounds) : p.flip.2.InBounds := h

theorem Part.InBounds.cycleEnd {p : Part} (h : p.InBounds) : p.cycleEnd.InBounds := by
  unfold Part.cycleEnd
  split
  · split
    · exact (h.flip.of_eq ‹_›).scrub.turnCycle
    · exact (h.flip.of_eq ‹_›).turnCycle.scrub
  · exact h.turnCycle.scrub

theorem Part.InBounds.upTo {p : Part} (h : p.InBounds) (d : Nat) : (p.upTo d).InBounds := by
  unfold Part.upTo
  split
  · exact h
  · exact Part.InBounds.mapMotors (p := p.modTb (·.pass d)) h _ fun _ hq => hq

theorem Part.InBounds.takeTimed {p : Part} (h : p.InBounds) (e : Instr) (f : Part → Part)
    (hf : ∀ q : Part, q.InBounds → (f q).InBounds) : (p.takeTimed e f).InBounds := by
  unfold Part.takeTimed
  split
  · exact h
  · split
    · exact h
    · split
      · exact (hf _ (h.upTo _)).settle
      · exact h

/-! ## Transfers (chapter 11) -/

theorem Upstream.leaveUnconsumed_queue_length (u : Upstream) : u.leaveUnconsumed.queue.length ≤ u.queue.length := Nat.le_refl _

/-- The end of a transfer, which puts no frame in the queue, beside a frame's effect. -/
theorem Part.InBounds.endTransfer {p : Part} (h : p.InBounds) {fin : Upstream → Upstream} {act : FrameEffect}
    (hfin : ∀ u : Upstream, (fin u).queue.length ≤ u.queue.length) (ha : ∀ q : Part, q.InBounds → (act q).2.InBounds) :
    (p.endTransfer fin act).InBounds := by
  have ended : ∀ {q : Part}, q.InBounds → (q.modUp fin).InBounds := fun hq => hq.modUp (Nat.le_trans (hfin _) hq.queue)
  unfold Part.endTransfer
  split
  · split
    · exact (ha p h).joinAll _
    · exact h
  · exact h
  · split
    · exact (ha _ (ended (h.flip.of_eq ‹_›))).joinAll _
    · exact (ended ((ha _ (h.flip.of_eq ‹_›)).joinAll _)).joinAll _

/-- R164: the error count saturates, and an entry into LOST or a bad frame in it starts the recovery run over. -/
theorem Link.InBounds.raiseErrors {l : Link} (h : l.InBounds) : l.raiseErrors.InBounds := by
  have raised : min (l.errors + 8) 256 ≤ 256 := Nat.min_le_right _ _
  unfold Link.raiseErrors
  simp only
  split
  · exact ⟨raised, Nat.zero_lt_succ _⟩
  · exact ⟨raised, h.2⟩
  · exact ⟨raised, Nat.zero_lt_succ _⟩
  · exact ⟨raised, h.2⟩

/-- R165: the recovery run that reaches 64 makes the link ACTIVE. -/
theorem Link.InBounds.recover {l : Link} (h : l.InBounds) : l.recover.InBounds := by
  obtain ⟨errors, recovery⟩ := h
  unfold Link.recover
  simp only
  split
  · exact ⟨Nat.zero_le _, Nat.zero_lt_succ _⟩
  · rename_i hne
    exact ⟨errors, by show l.recovery + 1 < 64; omega⟩

theorem Link.InBounds.took {l : Link} (h : l.InBounds) : l.took.InBounds :=
  ⟨Nat.le_trans (Nat.sub_le _ _) h.1, h.2⟩

theorem Part.InBounds.badFrame {p : Part} (h : p.InBounds) : p.badFrame.InBounds := by
  have raised := h.modLink (f := Link.raiseErrors) h.link.raiseErrors
  unfold Part.badFrame
  simp only
  split
  · exact raised.stopAll .link
  · exact raised

theorem Part.InBounds.goodFrame {p : Part} (h : p.InBounds) (act : Bool → FrameEffect)
    (ha : ∀ b (q : Part), q.InBounds → (act b q).2.InBounds) : (p.goodFrame act).2.InBounds := by
  by_cases hl : p.link.errors < 256
  · rw [p.goodFrame_acted act hl]
    exact ha _ _ (h.modLink h.link.took)
  · rw [p.goodFrame_lost act (Nat.le_of_not_lt hl)]
    exact h.modLink (Link.InBounds.recover h.link)

theorem Part.InBounds.request {p : Part} (h : p.InBounds) (tag code : Byte) (f : Part → (ReplyCode × List Byte) × Part)
    (hf : ∀ q : Part, q.InBounds → (f q).2.InBounds) : (p.request tag code f).2.InBounds :=
  (hf (p.modLink _) (h.modLink h.link)).gather

theorem Part.InBounds.route {p : Part} (h : p.InBounds) (stream : Byte) (l : List (Fin 8)) : (p.route stream l).2.InBounds := by
  induction l generalizing p with
  | nil => exact h
  | cons i l ih =>
    unfold Part.route
    split
    · exact ih ((h.readWord _).of_eq ‹_›)
    · have read := (h.readWord _).of_eq ‹_›
      split
      · exact read
      · exact ih read

/-- R39: a record is taken while fewer than three are held. -/
theorem Motor.InBounds.takeSetpoint {q : Motor} (h : q.InBounds) (r : SetRec) : (q.takeSetpoint r).InBounds := by
  unfold Motor.takeSetpoint
  split
  · simp only [Motor.InBounds, Motor.modSetq_setq, SetQueue.offer]
    split
    · rename_i hroom
      simpa using Nat.succ_le_of_lt hroom
    · exact h
  · exact h

theorem Part.InBounds.setpoint {p : Part} (h : p.InBounds) (stream : Byte) (header : BitVec 16) (r : SetRec) :
    (p.setpoint stream header r).InBounds := by
  have routed := h.route stream [0, 1, 2, 3, 4, 5, 6, 7]
  unfold Part.setpoint
  split
  · have counted := routed.of_eq ‹_›
    split
    · exact (counted.modLink counted.link).modMotor _ ((counted.motor _).takeSetpoint r)
    · exact counted.modLink counted.link
  · have counted := routed.of_eq ‹_›
    exact counted.modLink counted.link

/-! ## The motor commands (chapter 2) -/

theorem Part.InBounds.doArm {p : Part} (h : p.InBounds) (m : Slot) : (p.doArm m).2.InBounds := by
  have read := h.readWords (motorRecords m)
  unfold Part.doArm
  split
  · unfold Part.armOff
    generalize p.readWords (motorRecords m) = q at read
    simp only
    split
    · exact read
    · split
      · exact read
      · split
        · exact read
        · exact read.modMotorSame m
  all_goals exact h

theorem Part.InBounds.doDisarm {p : Part} (h : p.InBounds) (m : Slot) : (p.doDisarm m).2.InBounds := by
  unfold Part.doDisarm
  split
  · exact h
  · exact h.modMotor m (Nat.zero_le 3)
  all_goals exact h

theorem Part.InBounds.enterStart {p : Part} (h : p.InBounds) (m : Slot) (origin : StartOrigin) :
    (p.enterStart m origin).InBounds := by
  have taken : ∀ offset, (p.offsetTaken offset).2.InBounds := fun offset => by
    unfold Part.offsetTaken
    split <;> exact h
  exact (taken _).modMotorSame m

theorem Part.InBounds.startFrom {p : Part} (h : p.InBounds) (m : Slot) (origin : StartOrigin) :
    (p.startFrom m origin).2.InBounds := by
  have read := h.readWords (motorRecords m)
  unfold Part.startFrom
  generalize p.readWords (motorRecords m) = q at read
  simp only
  split
  · exact read
  · split
    · exact read
    · split
      · exact read
      · exact read.enterStart m origin

theorem Part.InBounds.doStart {p : Part} (h : p.InBounds) (m : Slot) : (p.doStart m).2.InBounds := by
  unfold Part.doStart
  split
  · exact h.startFrom m .ready
  · exact h.startFrom m .safeStop
  all_goals exact h

theorem Part.InBounds.doPark {p : Part} (h : p.InBounds) (m : Slot) : (p.doPark m).2.InBounds := by
  unfold Part.doPark
  split
  · exact h.modMotorSame m
  · exact (h.leaveRun m .ready none).modMotorSame m
  all_goals exact h

theorem Part.InBounds.doHalt {p : Part} (h : p.InBounds) (m : Slot) : (p.doHalt m).2.InBounds := by
  unfold Part.doHalt
  split
  · exact h.safeStop .halt m
  · exact h.safeStop .halt m
  all_goals exact h

theorem Part.InBounds.doRelease {p : Part} (h : p.InBounds) (m : Slot) : (p.doRelease m).2.InBounds := by
  unfold Part.doRelease
  split
  · exact (h.modMotorSame m).modMotorSame m
  all_goals exact h

theorem Part.InBounds.acknowledge {p : Part} (h : p.InBounds) (m : Slot) : (p.acknowledge m).InBounds :=
  ((h.readWords (motorRecords m)).modMotorSame m).modMotorSame m

theorem Part.InBounds.doAck {p : Part} (h : p.InBounds) (m : Slot) : (p.doAck m).2.InBounds := by
  unfold Part.doAck
  split
  · split
    · exact h.acknowledge m
    · exact h
  all_goals exact h

theorem Part.InBounds.motorCmd {p : Part} (h : p.InBounds) (n : BitVec 4) (degraded gated : Bool)
    (act : Slot → Part → ReplyCode × Part) (ha : ∀ m (q : Part), q.InBounds → (act m q).2.InBounds) :
    (p.motorCmd n degraded gated act).2.InBounds := by
  unfold Part.motorCmd
  split
  · exact h
  · simp only
    split
    · exact h
    · split
      · exact h
      · exact ha _ _ h

/-! ## Records and status (chapters 10 and 11) -/

theorem Part.InBounds.readRecord {p : Part} (h : p.InBounds) (region : BitVec 4) (segment : BitVec 2) (index : Byte) :
    (p.readRecord region segment index).2.InBounds := by
  unfold Part.readRecord
  split
  · exact h
  · exact h.readWords _

theorem Part.InBounds.planMismatch {p : Part} (h : p.InBounds) (m : Slot) (es : List PlanEntry) :
    (p.planMismatch m es).2.InBounds := by
  unfold Part.planMismatch
  split
  · split <;> exact (h.readWord _).of_eq ‹_›
  · exact h

theorem Part.InBounds.checkPlan {p : Part} (h : p.InBounds) (r : RecordId) (ws : List (List Nat)) :
    (p.checkPlan r ws).2.InBounds := by
  unfold Part.checkPlan
  split
  · split
    · exact h
    · split <;> exact (h.planMismatch _ _).of_eq ‹_›
  all_goals exact h

theorem Part.InBounds.storeRecord {p : Part} (h : p.InBounds) (r : RecordId) (mask : BitVec 16)
    (words : List (Nat × List Byte)) : (p.storeRecord r mask words).2.InBounds := by
  unfold Part.storeRecord
  simp only
  split
  · exact h
  · split
    · exact h
    · split
      · have checked := (h.checkPlan _ _).of_eq ‹_›
        unfold Part.followP
        split <;> exact checked
      · exact (h.checkPlan _ _).of_eq ‹_›

theorem Part.InBounds.writeRecord {p : Part} (h : p.InBounds) (r : RecordId) (mask : BitVec 16)
    (words : List (Nat × List Byte)) : (p.writeRecord r mask words).2.InBounds := by
  unfold Part.writeRecord
  split
  · exact h.storeRecord r mask words
  · simp only
    split
    · exact (h.readWords _).storeRecord r mask words
    · exact h.readWords _

theorem Part.InBounds.writeFrame {p : Part} (h : p.InBounds) (degraded : Bool) (f : WriteFrame) :
    (p.writeFrame degraded f).2.InBounds := by
  have staged : ∀ st, (p.modLink fun l => { l with staging := st }).InBounds := fun _ => h.modLink h.link
  unfold Part.writeFrame
  split
  · exact staged none
  · split
    · exact staged none
    · split
      · exact staged none
      · split
        · exact staged _
        · split
          · exact staged none
          · exact (staged none).writeRecord _ _ _

theorem Part.InBounds.clearSection {p : Part} (h : p.InBounds) (sc : SectionId) : (p.clearSection sc).InBounds := by
  cases sc with
  | timebase => exact h.modTb.mapMotors _ fun _ hq => hq
  | motor m => exact h.modMotorSame m
  | sampler => exact h.modSampler.mapMotors _ fun _ hq => hq
  | link | store | device => exact h

theorem Part.InBounds.clearCounts {p : Part} (h : p.InBounds) (sect : BitVec 4) : (p.clearCounts sect).2.InBounds := by
  unfold Part.clearCounts
  split
  · exact h
  · exact h.clearSection _

theorem Part.InBounds.readStatus {p : Part} (h : p.InBounds) (sect : BitVec 4) (page : Byte) :
    (p.readStatus sect page).2.InBounds := by
  unfold Part.readStatus
  split <;> exact h

/-! ## Resets (R47, R139, R172) -/

theorem Motor.initial_inBounds (pinHigh : Bool) : (Motor.initial pinHigh).InBounds := Nat.zero_le 3

theorem Link.initial_inBounds : Link.initial.InBounds := ⟨Nat.zero_le _, Nat.zero_lt_succ _⟩

theorem Part.InBounds.resetP {p : Part} (h : p.InBounds) : p.resetP.2.InBounds := by
  unfold Part.resetP
  split
  · split <;> exact (h.readWord _).of_eq ‹_›
  · exact h

theorem Part.InBounds.resetBlocks {p : Part} (h : p.InBounds) : p.resetBlocks.InBounds :=
  ⟨Nat.zero_le 8, Link.initial_inBounds, h.resetP.motor⟩

theorem Part.InBounds.doResetPart {p : Part} (h : p.InBounds) (degraded : Bool) : (p.doResetPart degraded).2.InBounds := by
  unfold Part.doResetPart
  split
  · exact h
  · refine Part.InBounds.resetBlocks (h.mapMotors Motor.resetPart fun q _ => ?_)
    unfold Motor.resetPart
    simp only
    split <;> exact Motor.initial_inBounds q.prot.pinHigh

theorem Part.InBounds.enableReset {p : Part} (h : p.InBounds) (pins : Triple Bool) : (p.enableReset pins).InBounds := by
  refine Part.InBounds.resetBlocks (p := { p with en := true, motors := pins.map Motor.enableReset })
    ⟨h.queue, h.link, fun m => ?_⟩
  simp only [Part.motor, Triple.get_map]
  exact Motor.initial_inBounds _

theorem Part.powerOn_inBounds (p : Part) (e : Bool) (pins : Triple Bool) : (p.powerOn e pins).InBounds := by
  refine ⟨Nat.zero_le 8, Link.initial_inBounds, fun m => ?_⟩
  simp only [Part.powerOn, Part.motor, Part.modUp, Part.poweredOn, Triple.get_map]
  exact Motor.initial_inBounds _

theorem Part.InBounds.enFall {p : Part} (h : p.InBounds) : p.enFall.InBounds :=
  Part.InBounds.mapMotors (p := { p with
    en := false, tb := .initial p.store.resetP, up := { p.up with transfer := p.up.transfer.cut } }) h _ fun _ hq => hq

/-! ## The step -/

/-- The work of a timed command. -/
theorem Part.InBounds.timedWork {p : Part} (h : p.InBounds) {c : Instr} {f : Part → Part} (hc : c.timedWork = some f) :
    (f p).InBounds := by
  cases c <;> cases hc
  case masterCycleEnd => exact h.cycleEnd
  case firstValley m => exact h.openFirst m
  case valley m => exact h.openNext m
  case edge m => exact h.modMotorSame m (by rw [Motor.makeEdges_setq])
  case pendingTurnOn m x g => exact h.modMotorSame m
  case rampCommutation m => exact h.rampDue m
  case detectedCommutation m => exact h.detectedDue m
  case searchTimeout m => exact h.timeoutDue m
  case waitingListJoin m entry => exact h.joinPlaced m entry
  case holdEligible => exact h.modSampler
  case freeze => exact h.grantHead
  case deadline r => exact h.missDeadline r
  case conversionComplete code => exact h.converted code
  case busRequestPlace => exact h.busPlace

/-- The effect of a frame. -/
theorem Part.InBounds.frameWork {p : Part} (h : p.InBounds) {c : Instr} {fin : Upstream → Upstream} {act : FrameEffect}
    (hc : c.frameWork = some (fin, act)) : (act p).2.InBounds := by
  have request : ∀ (tag code : Byte) (f : Bool → Part → (ReplyCode × List Byte) × Part),
      (∀ b (q : Part), q.InBounds → (f b q).2.InBounds) →
      (p.goodFrame fun b p => p.request tag code (f b)).2.InBounds := fun tag code f hf =>
    h.goodFrame _ fun b q hq => hq.request tag code _ (hf b)
  cases c <;> cases hc
  case idleFrame => exact h.goodFrame _ fun _ _ hq => hq
  case setpoint => exact h.goodFrame _ fun _ _ hq => (hq.setpoint _ _ _).gather
  case badFrame why => exact (h.modLink (by cases why <;> exact h.link)).badFrame.gather
  case abortedTransfer => exact (h.modLink (f := fun l => { l with aborted := bump l.aborted }) h.link).badFrame.gather
  case readRecord => exact request _ _ _ fun _ _ hq => hq.readRecord _ _ _
  case writeRecord => exact request _ _ _ fun b _ hq => hq.writeFrame b _
  case arm => exact request _ _ _ fun b _ hq => hq.motorCmd _ b true _ fun m _ => (·.doArm m)
  case disarm => exact request _ _ _ fun b _ hq => hq.motorCmd _ b false _ fun m _ => (·.doDisarm m)
  case start => exact request _ _ _ fun b _ hq => hq.motorCmd _ b true _ fun m _ => (·.doStart m)
  case park => exact request _ _ _ fun b _ hq => hq.motorCmd _ b false _ fun m _ => (·.doPark m)
  case halt => exact request _ _ _ fun b _ hq => hq.motorCmd _ b false _ fun m _ => (·.doHalt m)
  case release => exact request _ _ _ fun b _ hq => hq.motorCmd _ b false _ fun m _ => (·.doRelease m)
  case ackFault => exact request _ _ _ fun b _ hq => hq.motorCmd _ b false _ fun m _ => (·.doAck m)
  case readStatus => exact request _ _ _ fun _ _ hq => hq.readStatus _ _
  case clearCounts => exact request _ _ _ fun _ _ hq => hq.clearCounts _
  case resetPart => exact request _ _ _ fun b _ hq => hq.doResetPart b
  case badRequest => exact request _ _ _ fun _ _ hq => hq

/-- R136: the end of a transfer puts no frame in the queue. -/
theorem frameWork_fin_queue_length {c : Instr} {fin : Upstream → Upstream} {act : FrameEffect}
    (hc : c.frameWork = some (fin, act)) (u : Upstream) : (fin u).queue.length ≤ u.queue.length := by
  cases c <;> cases hc
  case abortedTransfer => exact u.leaveUnconsumed_queue_length
  all_goals exact u.consume_queue_length

theorem Part.InBounds.beginTransfer {p : Part} (h : p.InBounds) : p.beginTransfer.InBounds := by
  have upStream : ∀ {q : Part}, q.InBounds → q.upStream.2.InBounds := fun hq => by
    unfold Part.upStream
    split <;> exact (hq.readConfig _).of_eq ‹_›
  have started := h.modUp (f := fun u => { u with transfer := .active p.choose.carried [] false false }) h.queue
  unfold Part.beginTransfer
  simp only
  split
  · exact started
  · exact upStream started

theorem Part.InBounds.after {p : Part} (h : p.InBounds) (c : Instr) : (p.after c).InBounds := by
  rcases instr_kinds c with
    ⟨f, hf⟩ | ⟨fin, act, hf⟩ | ⟨e, pins, rfl⟩ | rfl | ⟨pins, rfl⟩ | rfl | ⟨m, rfl⟩ | ⟨m, rfl⟩ | rfl
  · rw [p.after_of_timedWork hf]
    exact h.takeTimed c f fun q hq => hq.timedWork hf
  · rw [p.after_of_frameWork hf]
    exact h.endTransfer (frameWork_fin_queue_length hf) fun q hq => hq.frameWork hf
  · exact p.powerOn_inBounds e pins
  · simp only [Part.after, exec, execEnFall]
    split
    · exact h.enFall
    · exact h
  · exact h.enableReset pins
  · simp only [Part.after, exec, execSyncEdge]
    split <;> exact h
  · simp only [Part.after, exec, execOcPinFall]
    split
    · exact ((h.modMotorSame m).trip _ m).settle
    · exact h
  · simp only [Part.after, exec, execOcPinRise]
    split
    · exact h.modMotorSame m
    · exact h
  · simp only [Part.after, exec, execTransferStart]
    split
    · split
      · exact h.beginTransfer.settle
      · exact h
    all_goals exact h

/-- Settles O12: every operation keeps `InBounds`; only a joining frame, a setpoint record and the link's frames raise what
it bounds. -/
theorem queuesAndScoreBounded : Obligations.QueuesAndScoreBounded := by
  intro s t hb hstep
  have h := s.part.bounded_iff.1 hb
  rw [Part.bounded_iff]
  unfold step at hstep
  split at hstep
  · unfold idle at hstep
    split at hstep
    · cases hstep
      exact h
    · split at hstep
      · rw [exec_eq_after] at hstep
        cases hstep
        exact Part.InBounds.after (p := { s.part with free := s.part.free + 1 }) h _
      · cases hstep
        exact h.upTo 1
  · rw [exec_eq_after] at hstep
    cases hstep
    exact h.after _

end Sys2Proof.Machine
end

section
/-! The routing of setpoints (R38, R39, R166), with ACCEPT words found uncorrectable on the way (R158). -/

namespace Sys2Proof.Machine

/-! ## Reads of ACCEPT words -/

theorem ownerOf_accept (i : Fin 8) : ownerOf ((RecordId.accept i).pos 0) = .accept := by
  revert i
  decide

/-- R152: no two ACCEPT records stand at one position. -/
theorem accept_pos_injective : Function.Injective fun i : Fin 8 => (RecordId.accept i).pos 0 := by decide

/-- R157: what a read of a word answers. -/
theorem Part.readWord_answer (p : Part) (pos : Fin 82) : (p.readWord pos).1 =
    if (p.store.word pos).valid && !(p.store.word pos).broken pos then some (p.store.word pos).fields else none := by
  cases hv : (p.store.word pos).valid with
  | false => simp [Part.readWord, hv]
  | true =>
    cases hb : (p.store.word pos).broken pos with
    | true => simp [Part.readWord, hv, hb]
    | false => cases hf : (p.store.word pos).flips <;> simp [Part.readWord, hv, hb, hf]

/-- R142, R158: no motor trips by an ACCEPT word. -/
theorem Part.readWord_accept (p : Part) (i : Fin 8) :
    let pos := (RecordId.accept i).pos 0
    p.readWord pos =
      (if (p.store.word pos).valid && !(p.store.word pos).broken pos then some (p.store.word pos).fields else none,
       p.readThrough [pos]) := by
  intro pos
  have owner : ownerOf pos = .accept := ownerOf_accept i
  refine Prod.ext (p.readWord_answer pos) ?_
  simp only
  cases hb : p.store.brokenAt pos with
  | true =>
    obtain ⟨hv, hk⟩ := Bool.and_eq_true_iff.1 hb
    have hr : p.readWord pos = (none, p.uncorrectable pos) := by simp [Part.readWord, hv, hk]
    simp only [hr, Part.uncorrectable, owner, Part.readThrough, Store.readAll, Store.readAt, hb, List.filter_cons_of_pos,
      if_true]
    rfl
  | false => exact Part.readWord_store (.inr hb)

theorem Part.readThrough_nil (p : Part) : p.readThrough [] = p := by
  simp only [Part.readThrough, List.filter_nil, List.map_nil, List.append_nil]
  rfl

theorem Part.readThrough_readThrough (p : Part) {pos : Fin 82} {l : List (Fin 82)} (h : pos ∉ l) :
    (p.readThrough [pos]).readThrough l = p.readThrough (pos :: l) := by
  have split : (pos :: l).filter p.store.brokenAt = [pos].filter p.store.brokenAt ++ l.filter p.store.brokenAt := by
    rw [← List.filter_append]
    rfl
  have rest : l.filter (p.store.readAll [pos]).brokenAt = l.filter p.store.brokenAt := p.store.filter_brokenAt_readAt h
  simp only [Part.readThrough, split, rest, List.map_append, List.append_assoc]
  rfl

/-- Reads of words of which none is broken raise no notice. -/
theorem Part.readThrough_unbroken {p : Part} {l : List (Fin 82)} (h : p.store.WholeAt l) :
    p.readThrough l = { p with store := p.store.readAll l } := by
  have none : l.filter p.store.brokenAt = [] := List.filter_eq_nil_iff.2 fun pos hp hb => by
    obtain ⟨hv, hk⟩ := Bool.and_eq_true_iff.1 hb
    rw [h pos hp hv] at hk
    exact Bool.false_ne_true hk
  simp only [Part.readThrough, none, List.map_nil, List.append_nil]

/-! ## The record that takes the setpoint (R166) -/

/-- R166: the masked comparison, as the spec words it. -/
theorem entryMatches_iff (fs : List Nat) (stream : Byte) : entryMatches fs stream = true ↔
    field fs 0 ≠ 0 ∧ stream &&& BitVec.ofNat 8 (field fs 2) = BitVec.ofNat 8 (field fs 1) &&& BitVec.ofNat 8 (field fs 2) := by
  have masked : ∀ a b c : Byte, (a ^^^ b) &&& c = (a &&& c) ^^^ (b &&& c) := fun a b c => by
    ext i hi
    simp only [BitVec.getElem_and, BitVec.getElem_xor, Bool.and_xor_distrib_right]
  simp [entryMatches, masked, BitVec.xor_eq_zero_iff]

/-- R166: a read of the record gives data, and its entry matches. -/
def Store.accepts (st : Store) (stream : Byte) (i : Fin 8) : Bool :=
  let w := st.word ((RecordId.accept i).pos 0)
  w.valid && !w.broken ((RecordId.accept i).pos 0) && entryMatches w.fields stream

theorem Store.accepts_iff (st : Store) (stream : Byte) (i : Fin 8) :
    let w := st.word ((RecordId.accept i).pos 0)
    st.accepts stream i = true ↔
      (w.valid = true ∧ field w.fields 0 ≠ 0 ∧
        stream &&& BitVec.ofNat 8 (field w.fields 2) =
          BitVec.ofNat 8 (field w.fields 1) &&& BitVec.ofNat 8 (field w.fields 2)) ∧
      (w.valid = true → w.broken ((RecordId.accept i).pos 0) = false) := by
  simp only [Store.accepts, Bool.and_eq_true, Bool.not_eq_true', entryMatches_iff]
  exact ⟨fun ⟨⟨hv, hb⟩, he⟩ => ⟨⟨hv, he⟩, fun _ => hb⟩, fun ⟨⟨hv, he⟩, hb⟩ => ⟨⟨hv, hb hv⟩, he⟩⟩

/-- The destination of the record found (R166). -/
def Store.destOf (st : Store) (found : Option (Fin 8)) : Option Nat :=
  found.map fun i => field (st.word ((RecordId.accept i).pos 0)).fields 3

/-- The words that the routing reads among some records: those up to the record found. -/
def routeReads (found : Option (Fin 8)) (l : List (Fin 8)) : List (Fin 82) :=
  (l.filter fun j => found.all fun i => decide (j ≤ i)).map fun j => (RecordId.accept j).pos 0

theorem routeReads_nodup (found : Option (Fin 8)) {l : List (Fin 8)} (h : l.Nodup) : (routeReads found l).Nodup :=
  (h.filter _).map accept_pos_injective

theorem routeReads_found {i : Fin 8} {l : List (Fin 8)} (h : ∀ j ∈ l, i < j) :
    routeReads (some i) (i :: l) = [(RecordId.accept i).pos 0] := by
  have none : l.filter (fun j => decide (j ≤ i)) = [] := List.filter_eq_nil_iff.2 fun j hj => by simpa using h j hj
  simp [routeReads, none]

theorem routeReads_before {found : Option (Fin 8)} {i : Fin 8} {l : List (Fin 8)} (h : ∀ k, found = some k → i ≤ k) :
    routeReads found (i :: l) = (RecordId.accept i).pos 0 :: routeReads found l := by
  rw [routeReads, List.filter_cons_of_pos (by cases found <;> simp [h])]
  rfl

/-- The words up to the record found are whole. -/
theorem wholeAt_routeReads {st : Store} {found : Option (Fin 8)} (l : List (Fin 8))
    (h : ∀ j, (∀ i, found = some i → j ≤ i) → (st.word ((RecordId.accept j).pos 0)).valid = true →
      (st.word ((RecordId.accept j).pos 0)).broken ((RecordId.accept j).pos 0) = false) :
    st.WholeAt (routeReads found l) := fun pos hp => by
  obtain ⟨j, hj, rfl⟩ := List.mem_map.1 hp
  refine h j fun i hi => ?_
  subst hi
  simpa using (List.mem_filter.1 hj).2

theorem accept_not_mem_routeReads {found : Option (Fin 8)} {i : Fin 8} {l : List (Fin 8)} (h : i ∉ l) :
    (RecordId.accept i).pos 0 ∉ routeReads found l := fun hm => by
  obtain ⟨j, hj, he⟩ := List.mem_map.1 hm
  exact h (accept_pos_injective he ▸ (List.mem_filter.1 hj).1)

/-- R166: one record of the routing. -/
theorem Part.route_cons (p : Part) (stream : Byte) (i : Fin 8) (l : List (Fin 8)) :
    p.route stream (i :: l) =
      if p.store.accepts stream i then
        (some (field (p.store.word ((RecordId.accept i).pos 0)).fields 3), p.readThrough [(RecordId.accept i).pos 0])
      else (p.readThrough [(RecordId.accept i).pos 0]).route stream l := by
  rw [Part.route, p.readWord_accept, Store.accepts]
  by_cases data : ((p.store.word ((RecordId.accept i).pos 0)).valid &&
      !(p.store.word ((RecordId.accept i).pos 0)).broken ((RecordId.accept i).pos 0)) = true
  · simp only [data, if_true, Bool.true_and]
  · simp only [data, Bool.false_and, Bool.false_eq_true, if_false]

/-- R166: the routing finds the first record that accepts, and reads the words up to it. -/
theorem Part.route_eq (p : Part) (stream : Byte) {l : List (Fin 8)} (hl : l.Pairwise (· < ·)) :
    p.route stream l =
      (p.store.destOf (l.find? (p.store.accepts stream)),
       p.readThrough (routeReads (l.find? (p.store.accepts stream)) l)) := by
  induction l generalizing p with
  | nil => exact congrArg (Prod.mk none) p.readThrough_nil.symm
  | cons i l ih =>
    obtain ⟨hlt, hl⟩ := List.pairwise_cons.1 hl
    rw [p.route_cons]
    cases ha : p.store.accepts stream i with
    | true => rw [List.find?_cons_of_pos ha, routeReads_found hlt]; rfl
    | false =>
      have hne : ∀ j ∈ l, (RecordId.accept j).pos 0 ≠ (RecordId.accept i).pos 0 := fun j hj e =>
        absurd (accept_pos_injective e) (Fin.ne_of_gt (hlt j hj))
      have hword : ∀ j ∈ l, (p.readThrough [(RecordId.accept i).pos 0]).store.word ((RecordId.accept j).pos 0) =
          p.store.word ((RecordId.accept j).pos 0) := fun j hj => p.store.word_readAt_ne (hne j hj)
      have hfind : l.find? ((p.readThrough [(RecordId.accept i).pos 0]).store.accepts stream) =
          l.find? (p.store.accepts stream) := List.find?_congr fun j hj => by simp only [Store.accepts, hword j hj]
      rw [if_neg Bool.false_ne_true, ih _ hl, hfind, List.find?_cons_of_neg (by simp [ha]),
        p.readThrough_readThrough (accept_not_mem_routeReads fun hm => absurd (hlt i hm) (Nat.lt_irrefl _)),
        ← routeReads_before fun k hk => Fin.le_of_lt (hlt k (List.mem_of_find?_eq_some hk))]
      refine congrArg (·, _) (Option.map_congr fun k hk => ?_)
      rw [hword k (List.mem_of_find?_eq_some hk)]

end Sys2Proof.Machine
end

section
/-! SETPOINT (R37 to R39, R166): what it comes to, with and without ACCEPT words found uncorrectable. -/

namespace Sys2Proof.Machine

/-! ## The destination (R38, R39, R166) -/

/-- R166: the link's counts after the routing to a destination, or to none. -/
def Link.countRoute (l : Link) (stream : Byte) (header : BitVec 16) : Option Nat → Link
  | some d => if (slotOfNat d).isSome then { l with routed := bump l.routed } else { l with droppedBy := bump l.droppedBy }
  | none => { l with unmatchedCount := bump l.unmatchedCount, unmatched := some ((1#8 ++ stream) ++ header) }

/-- R38: the motors after the routing. -/
def deliverTo (motors : Triple Motor) (r : SetRec) (dest : Option Nat) : Triple Motor :=
  match dest.bind slotOfNat with
  | some m => motors.set m ((motors.get m).takeSetpoint r)
  | none => motors

theorem Link.countRoute_slot (l : Link) (stream : Byte) (header : BitVec 16) (m : Slot) :
    l.countRoute stream header (some m.toNat) = { l with routed := bump l.routed } := by
  simp only [countRoute, slotOfNat_toNat, Option.isSome_some, if_true]

theorem deliverTo_slot (motors : Triple Motor) (r : SetRec) (m : Slot) :
    deliverTo motors r (some m.toNat) = motors.set m ((motors.get m).takeSetpoint r) := by
  simp only [deliverTo, Option.bind_some, slotOfNat_toNat]

theorem deliverTo_slot_get (motors : Triple Motor) (r : SetRec) (m k : Slot) :
    (deliverTo motors r (some m.toNat)).get k =
      if k = m then (motors.get k).takeSetpoint r else motors.get k := by
  rw [deliverTo_slot]
  split
  · rename_i hk
    rw [hk, Triple.get_set_self]
  · rename_i hk
    exact Triple.get_set_ne _ _ hk

theorem Motor.takeSetpoint_scheds (q : Motor) (r : SetRec) : (q.takeSetpoint r).scheds = q.scheds := by
  unfold Motor.takeSetpoint
  split <;> rfl

theorem deliverTo_scheds (motors : Triple Motor) (r : SetRec) (dest : Option Nat) (k : Slot) :
    ((deliverTo motors r dest).get k).scheds = (motors.get k).scheds := by
  unfold deliverTo
  split
  · rename_i m _
    by_cases hk : k = m
    · rw [hk, Triple.get_set_self, Motor.takeSetpoint_scheds]
    · rw [Triple.get_set_ne _ _ hk]
  · rfl

/-- R38, R39: the record joins the motor's queue, is refused as an overrun, or is discarded by the motor's state. -/
theorem Motor.takeSetpoint_eq (q : Motor) (r : SetRec) :
    let joins := q.slot.state = .ready ∨ q.slot.state = .startPending ∨ q.slot.state = .running
    q.takeSetpoint r = { q with setq :=
      if joins ∧ q.setq.recs.length < 3 then { q.setq with recs := q.setq.recs ++ [r], accepted := bump q.setq.accepted }
      else if joins then { q.setq with overrunFlag := true, overruns := bump q.setq.overruns }
      else { q.setq with stateDiscards := bump q.setq.stateDiscards } } := by
  intro joins
  have takes : q.slot.state.takesSetpoints = true ↔ joins := by
    simp only [joins]
    cases q.slot.state <;> simp [MotorState.takesSetpoints]
  by_cases hj : joins
  · by_cases hroom : q.setq.recs.length < 3
    · rw [if_pos ⟨hj, hroom⟩, Motor.takeSetpoint, if_pos (takes.2 hj), Motor.modSetq, SetQueue.offer, if_pos hroom]
    · rw [if_neg fun h => hroom h.2, if_pos hj, Motor.takeSetpoint, if_pos (takes.2 hj), Motor.modSetq, SetQueue.offer,
        if_neg hroom]
  · rw [if_neg fun h => hj h.1, if_neg hj, Motor.takeSetpoint, if_neg fun h => hj (takes.1 h)]
    rfl

/-! ## The setpoint -/

/-- The ACCEPT records, in the order in which they are read (R166). -/
def acceptRecords : List (Fin 8) := [0, 1, 2, 3, 4, 5, 6, 7]

theorem acceptRecords_eq : acceptRecords = List.finRange 8 := by decide

theorem acceptRecords_sorted : acceptRecords.Pairwise (· < ·) := by decide

theorem acceptReads_nodup (found : Option (Fin 8)) : (routeReads found acceptRecords).Nodup :=
  routeReads_nodup found (by decide)

/-- R166: the record that takes the setpoint is the first that accepts it. -/
theorem find_acceptRecords {f : Fin 8 → Bool} {found : Option (Fin 8)}
    (hs : ∀ i, found = some i → f i = true ∧ ∀ j, j < i → f j = false) (hn : found = none → ∀ j, f j = false) :
    acceptRecords.find? f = found := by
  rw [acceptRecords_eq]
  cases found with
  | none => exact List.find?_eq_none.2 fun j _ => by simp [hn rfl j]
  | some i =>
    obtain ⟨hi, hlt⟩ := hs i rfl
    refine List.find?_eq_some_iff_getElem.2 ⟨hi, i.val, by simp, by simp, fun j hj => ?_⟩
    simpa using hlt ⟨j, by omega⟩ hj

/-- R38, R39, R166: a setpoint is its reads of ACCEPT words, a count of the link, and the record's delivery. -/
theorem Part.setpoint_eq (p : Part) (stream : Byte) (header : BitVec 16) (r : SetRec) {found : Option (Fin 8)}
    (hf : acceptRecords.find? (p.store.accepts stream) = found) :
    p.setpoint stream header r =
      ({ p with
        link := p.link.countRoute stream header (p.store.destOf found)
        motors := deliverTo p.motors r (p.store.destOf found) } : Part).readThrough (routeReads found acceptRecords) := by
  have route : p.route stream [0, 1, 2, 3, 4, 5, 6, 7] =
      (p.store.destOf found, p.readThrough (routeReads found acceptRecords)) := by
    rw [← hf]
    exact p.route_eq stream acceptRecords_sorted
  rw [Part.setpoint, route]
  cases p.store.destOf found with
  | none => rfl
  | some d =>
    simp only [Link.countRoute, deliverTo, Option.bind_some]
    cases slotOfNat d <;> rfl

/-- What a setpoint does at the end of its frame (R164, R166). -/
def setpointAct (stream : Byte) (header : BitVec 16) (r : SetRec) : FrameEffect := fun p =>
  p.goodFrame fun _ p => (p.setpoint stream header r).gather

theorem exec_setpoint (s : State) (stream : Byte) (header : BitVec 16) (tag : Byte) (applyAt : Option Byte)
    (du dv dw : BitVec 16) : exec (.setpoint stream header tag applyAt du dv dw) s =
      .next { s with part := s.part.takeFrame (setpointAct stream header ⟨tag, applyAt, ⟨du, dv, dw⟩⟩) } := rfl

/-- The part in which a setpoint has been counted and delivered, but for its reads. -/
def Part.withSetpoint (p : Part) (stream : Byte) (header : BitVec 16) (r : SetRec) (found : Option (Fin 8)) (u : Upstream)
    (free : Nat) : Part :=
  { p with
    link := p.link.took.countRoute stream header (p.store.destOf found)
    motors := deliverTo p.motors r (p.store.destOf found)
    up := u, free := free }

/-- A setpoint completes no schedule and raises no notice of its own. -/
theorem Part.Quiet.withSetpoint {p : Part} (h : p.Quiet) (stream : Byte) (header : BitVec 16) (r : SetRec)
    (found : Option (Fin 8)) (u : Upstream) (free : Nat) : (p.withSetpoint stream header r found u free).Quiet where
  outbox := h.outbox
  handed k := by
    rw [Part.motor, Part.withSetpoint, deliverTo_scheds]
    exact h.handed k

/-- R164, R166: a setpoint that is acted on, whatever the upstream side. -/
theorem Part.setpointAct_eq {p : Part} {stream : Byte} (header : BitVec 16) (r : SetRec) {found : Option (Fin 8)}
    (h : p.link.errors < 256) (hf : acceptRecords.find? (p.store.accepts stream) = found) (u : Upstream) (n : Nat) :
    setpointAct stream header r { p with up := u, free := n } =
      ((p.withSetpoint stream header r found u n).readThrough (routeReads found acceptRecords)).gather := by
  rw [setpointAct, Part.goodFrame_acted { p with up := u, free := n } _ h,
    Part.setpoint_eq (({ p with up := u, free := n } : Part).modLink Link.took) stream header r hf]
  rfl

/-- R166: a setpoint none of whose ACCEPT words is found uncorrectable. -/
theorem Part.takeSetpoint_whole {p : Part} {stream : Byte} (header : BitVec 16) (r : SetRec) {found : Option (Fin 8)}
    (h : p.Serving 0) (hf : acceptRecords.find? (p.store.accepts stream) = found)
    (hw : p.store.WholeAt (routeReads found acceptRecords)) :
    p.takeFrame (setpointAct stream header r) = { p.transferEnded with
      store := p.store.readAll (routeReads found acceptRecords)
      link := p.link.took.countRoute stream header (p.store.destOf found)
      motors := deliverTo p.motors r (p.store.destOf found) } := by
  have act : ∀ u n, setpointAct stream header r { p with up := u, free := n } =
      ([], { p.withSetpoint stream header r found u n with
        store := p.store.readAll (routeReads found acceptRecords) }) := fun u n => by
    have quiet := h.quiet.withSetpoint stream header r found u n
    rw [Part.setpointAct_eq header r h.notLost hf,
      Part.readThrough_unbroken (p := p.withSetpoint stream header r found u n) hw]
    exact Part.gather_quiet _ ⟨quiet.outbox, quiet.handed⟩
  rw [p.takeFrame_apart _ (fun q => { q.withSetpoint stream header r found q.up q.free with
    store := p.store.readAll (routeReads found acceptRecords) }) h.en h.taken act, p.transferEnded_eq]
  rfl

/-- R158, R166: a setpoint with ACCEPT words found uncorrectable on the way. -/
theorem Part.takeSetpoint_broken {p : Part} {stream : Byte} (header : BitVec 16) (r : SetRec) {found : Option (Fin 8)}
    (h : p.Serving 0) (hf : acceptRecords.find? (p.store.accepts stream) = found) :
    ∃ t, p.takeFrame (setpointAct stream header r) = t ∧ p.FoundBroken t (routeReads found acceptRecords) [] ∧
      t.link = p.link.took.countRoute stream header (p.store.destOf found) ∧
      t.motors = deliverTo p.motors r (p.store.destOf found) := by
  have act := Part.setpointAct_eq header r h.notLost hf
  obtain ⟨u, v, -, ht, hj⟩ := p.endTransfer_among Upstream.consume (setpointAct stream header r) h.en h.taken fun u => by
    rw [act]
    rfl
  rw [act] at ht hj
  refine ⟨_, ht, ?_, rfl, ?_⟩
  · have broken := Part.readThrough_foundBroken (p := p.withSetpoint stream header r found p.up p.free) u v
      p.transferEnded.free (after := []) (acceptReads_nodup found) (h.quiet.withSetpoint stream header r found _ _)
      (by rw [List.append_nil]; exact hj)
    exact ⟨broken.fields, broken.marks, broken.counts, broken.frames⟩
  · exact Triple.ext_get fun k =>
      (Part.gather_handsOn _ v).motor_same ((h.quiet.withSetpoint stream header r found u p.transferEnded.free).handed k)

/-- R164, R166: SETPOINT where every ACCEPT word up to the record found can be read. -/
theorem exec_setpoint_whole {s : State} {stream : Byte} (header : BitVec 16) (tag : Byte) (applyAt : Option Byte)
    (du dv dw : BitVec 16) {found : Option (Fin 8)} (h : s.part.Serving 0)
    (hf : acceptRecords.find? (s.part.store.accepts stream) = found)
    (hw : ∀ j, (∀ i, found = some i → j ≤ i) → (s.part.store.word ((RecordId.accept j).pos 0)).valid = true →
      (s.part.store.word ((RecordId.accept j).pos 0)).broken ((RecordId.accept j).pos 0) = false) :
    ∃ st, s.part.store.Corrected st ∧ exec (.setpoint stream header tag applyAt du dv dw) s =
      .next { s with part := { s.part.transferEnded with
        store := st
        link := s.part.link.took.countRoute stream header (s.part.store.destOf found)
        motors := deliverTo s.part.motors ⟨tag, applyAt, ⟨du, dv, dw⟩⟩ (s.part.store.destOf found) } } := by
  have hread := wholeAt_routeReads acceptRecords hw
  exact ⟨_, (Part.readWords_unbroken (acceptReads_nodup found) hread).2, by
    rw [exec_setpoint, Part.takeSetpoint_whole header _ h hf hread]⟩

/-- Settles O45: the record found is the first that accepts; `exec_setpoint_whole` where every word on the way can be read,
`takeSetpoint_broken` in any case. -/
theorem setpointIsRouted : Obligations.SetpointIsRouted := by
  intro s stream header tag applyAt du dv dw h w whole hits taken l r
  have accepts : ∀ j, s.part.store.accepts stream j = true ↔ hits j ∧ whole j := s.part.store.accepts_iff stream
  have passes : ∀ j, ¬hits j ∨ ¬whole j → s.part.store.accepts stream j = false := fun j hj =>
    Bool.eq_false_iff.2 fun e => not_and_or.2 hj ((accepts j).1 e)
  have first : ∀ i, hits i → whole i → (∀ j, j < i → ¬hits j ∨ ¬whole j) →
      acceptRecords.find? (s.part.store.accepts stream) = some i := fun i hi hw hlt =>
    find_acceptRecords (fun k hk => by cases hk; exact ⟨(accepts i).2 ⟨hi, hw⟩, fun j hj => passes j (hlt j hj)⟩)
      fun e => by cases e
  have nothing : (∀ j, ¬hits j ∨ ¬whole j) → acceptRecords.find? (s.part.store.accepts stream) = none := fun hn =>
    find_acceptRecords (fun i hi => by cases hi) fun _ j => passes j (hn j)
  refine ⟨fun i hi hw hlt => ?_, fun hn => ?_, fun _ found hs hn => ?_⟩
  · have routed : taken (l.countRoute stream header (some (field (w i).fields 3)))
        (deliverTo s.part.motors r (some (field (w i).fields 3))) :=
      exec_setpoint_whole header tag applyAt du dv dw h (first i hi (hw i (Fin.le_refl i)) fun j hj => .inl (hlt j hj))
        fun j hj => hw j (hj i rfl)
    refine ⟨fun m hm => ?_, fun h3 => ?_⟩
    · rw [hm, Link.countRoute_slot, deliverTo_slot, Motor.takeSetpoint_eq] at routed
      exact routed
    · rw [h3] at routed
      exact routed
  · exact exec_setpoint_whole header tag applyAt du dv dw h (nothing fun j => .inl (hn j).2) fun j _ => (hn j).1
  · intro routed
    have hf : acceptRecords.find? (s.part.store.accepts stream) = found := by
      cases found with
      | none => exact nothing (hn rfl)
      | some i =>
        obtain ⟨hi, hw, hlt⟩ := hs i rfl
        exact first i hi hw hlt
    obtain ⟨t, ht, hbroken, hlink, hmotors⟩ := Part.takeSetpoint_broken header r h hf
    refine ⟨{ s with part := t }, by rw [exec_setpoint, ht], rfl, hbroken, fun i hi => ?_, fun e => ?_⟩
    · subst hi
      rw [show s.part.store.destOf (some i) = some (field (w i).fields 3) from rfl] at hlink hmotors
      refine ⟨fun m hm => ?_, fun h3 => ?_⟩
      · rw [hm, Link.countRoute_slot] at hlink
        rw [hm] at hmotors
        exact ⟨hlink, fun k => (congrArg (·.get k) hmotors).trans (deliverTo_slot_get _ r m k)⟩
      · rw [h3] at hlink hmotors
        exact ⟨hlink, hmotors⟩
    · subst e
      exact ⟨hmotors, hlink⟩

end Sys2Proof.Machine
end

section
/-! The dead-gap interlock (R65) of one stage, seen from an earlier state of it: the changes that keep it. -/

namespace Sys2Proof

@[simp] theorem Switch.other_other (g : Switch) : g.other.other = g := by cases g <;> rfl

theorem Switch.other_ne (g : Switch) : g.other ≠ g := by cases g <;> decide

end Sys2Proof

namespace Sys2Proof.Machine

/-! ## One change of a stage -/

/-- R65: of a stage that was `was`: every gate that was off and is on has its partner off, and off for the dead time. -/
def GateStage.Interlocked (st was : GateStage) (now : Tick) (dt : Nat) : Prop :=
  ∀ x g, (was.gateAt x g).on = false → (st.gateAt x g).on = true →
    (st.gateAt x g.other).on = false ∧ (st.gateAt x g.other).gapOver now dt = true

/-- What a request can do to a gate `a` that becomes `b`, beside its partner `partner`: its level and its last turn-off stay,
or it goes off, or it is turned on under the interlock. -/
inductive Gate.Turns (a b partner : Gate) (now : Tick) (dt : Nat) : Prop
  | stays (on : b.on = a.on) (gap : b.gapOver now dt = a.gapOver now dt)
  | off (off : b.on = false) (was : a.on = true)
  | on (off : partner.on = false) (gap : partner.gapOver now dt = true)

/-- Every gate of the stage `st` that becomes `st'` turns as a request may turn it. -/
def GateStage.Turns (st st' : GateStage) (now : Tick) (dt : Nat) : Prop :=
  ∀ x g, (st.gateAt x g).Turns (st'.gateAt x g) (st'.gateAt x g.other) now dt

theorem Gate.turns_pend (a partner : Gate) (pend : Option PendOn) (now : Tick) (dt : Nat) :
    a.Turns { a with pend := pend } partner now dt := .stays rfl rfl

theorem Gate.turns_self (a partner : Gate) (now : Tick) (dt : Nat) : a.Turns a partner now dt := .stays rfl rfl

/-- A gate that was off and is on stays so beside its partner, unless it goes off itself. -/
theorem GateStage.Interlocked.turns {st st' was : GateStage} {now : Tick} {dt : Nat} (h : st.Interlocked was now dt)
    (ht : st.Turns st' now dt) : st'.Interlocked was now dt := by
  intro x g hwas hon
  cases ht x g with
  | on off gap => exact ⟨off, gap⟩
  | off off _ => simp [hon] at off
  | stays on gap =>
    obtain ⟨poff, pgap⟩ := h x g hwas (on ▸ hon)
    cases ht x g.other with
    | stays pon gap' => exact ⟨pon ▸ poff, gap' ▸ pgap⟩
    | off _ pwas => simp [poff] at pwas
    | on off' _ => simp [hon] at off'

/-! ## The requests (R65, R66) -/

theorem GateStage.turnOff_turns (st : GateStage) (now : Tick) (dt : Nat) (x : Phase) (s : Switch) :
    st.Turns (st.turnOff now x s) now dt := by
  intro y r
  by_cases h : y = x ∧ r = s
  · obtain ⟨rfl, rfl⟩ := h
    rw [turnOff_self]
    split
    · exact .off rfl ‹_›
    · exact Gate.turns_pend _ _ _ _ _
  · rw [st.turnOff_other now h]
    exact Gate.turns_self _ _ _ _

theorem GateStage.turnOn_turns (st : GateStage) (now : Tick) (dt : Nat) (counted : Bool) (x : Phase) (s : Switch) :
    st.Turns (st.turnOn now dt counted x s) now dt := by
  intro y r
  by_cases h : y = x ∧ r = s
  · obtain ⟨rfl, rfl⟩ := h
    rw [turnOn_self, st.turnOn_other now dt counted fun e => r.other_ne e.2]
    split
    · exact Gate.turns_self _ _ _ _
    · split
      · rename_i ready
        exact .on ready.1 ready.2
      · exact Gate.turns_pend _ _ _ _ _
  · rw [st.turnOn_other now dt counted h]
    exact Gate.turns_self _ _ _ _

theorem GateStage.carryOut_turns (st : GateStage) (now : Tick) (dt : Nat) (x : Phase) (s : Switch) :
    st.Turns (st.carryOut now dt x s) now dt := by
  intro y r
  by_cases h : y = x ∧ r = s
  · obtain ⟨rfl, rfl⟩ := h
    rw [st.carryOut_other now dt fun e => r.other_ne e.2]
    unfold GateStage.carryOut
    split
    · split
      · rename_i hr
        simp only [pendReady, Bool.and_eq_true, Bool.not_eq_true'] at hr
        exact .on hr.1.2 hr.2
      · exact Gate.turns_self _ _ _ _
    · exact Gate.turns_self _ _ _ _
  · rw [st.carryOut_other now dt h]
    exact Gate.turns_self _ _ _ _

end Sys2Proof.Machine
end

section
/-! The dead-gap interlock (R65) along what the gate output stage is asked for: actions, valleys, edges, commutations. -/

namespace Sys2Proof.Machine

theorem GateStage.interlocked_self (st : GateStage) (now : Tick) (dt : Nat) : st.Interlocked st now dt := fun x g hoff hon => by
  simp [hoff] at hon

/-- A stage whose gates are all off has turned none on. -/
theorem GateStage.AllOff.interlocked {st : GateStage} (h : st.AllOff) (was : GateStage) (now : Tick) (dt : Nat) :
    st.Interlocked was now dt := fun x g _ hon => by simp [(h x g).1] at hon

theorem GateStage.Interlocked.turnOff {st was : GateStage} {now : Tick} {dt : Nat} (h : st.Interlocked was now dt) (x : Phase)
    (s : Switch) : (st.turnOff now x s).Interlocked was now dt := h.turns (st.turnOff_turns now dt x s)

theorem GateStage.Interlocked.turnOn {st was : GateStage} {now : Tick} {dt : Nat} (h : st.Interlocked was now dt)
    (counted : Bool) (x : Phase) (s : Switch) : (st.turnOn now dt counted x s).Interlocked was now dt :=
  h.turns (st.turnOn_turns now dt counted x s)

/-- A request that a condition guards. -/
theorem GateStage.Interlocked.ite {a b was : GateStage} {now : Tick} {dt : Nat} {c : Prop} [Decidable c]
    (ha : a.Interlocked was now dt) (hb : b.Interlocked was now dt) : (if c then a else b).Interlocked was now dt := by
  split
  · exact ha
  · exact hb

theorem GateStage.Interlocked.eachPhase {st was : GateStage} {now : Tick} {dt : Nat} {f : Phase → GateStage → GateStage}
    (h : st.Interlocked was now dt) (hf : ∀ x st, st.Interlocked was now dt → (f x st).Interlocked was now dt) :
    (st.eachPhase f).Interlocked was now dt := hf _ _ (hf _ _ (hf _ _ h))

/-- R17. -/
theorem GateStage.Interlocked.action {st was : GateStage} {now : Tick} {dt : Nat} (h : st.Interlocked was now dt)
    (a : GateAction) : (st.action a now dt).Interlocked was now dt := by
  cases a with
  | allOff => exact (st.allOff_allOff now).interlocked was now dt
  | lowBrake => exact h.eachPhase fun x _ hst => (hst.turnOff x .high).turnOn false x .low

/-- R56, R74. -/
theorem GateStage.Interlocked.valleyChange {st was : GateStage} {now : Tick} {dt : Nat} (h : st.Interlocked was now dt)
    (lv : PerPhase PhaseLevel) : (st.valleyChange now dt lv).Interlocked was now dt := by
  refine (h.eachPhase fun x st hst => ?_).eachPhase fun x st hst => ?_
  · have low : GateStage.Interlocked (if (lv.get x).low then st else st.turnOff now x .low) was now dt :=
      hst.ite (hst.turnOff x .low)
    exact low.ite (low.turnOff x .high)
  · have low : GateStage.Interlocked (if (lv.get x).low then st.turnOn now dt false x .low else st) was now dt :=
      (hst.turnOn false x .low).ite hst
    exact (low.turnOn false x .high).ite low

/-- R73, R89. -/
theorem GateStage.Interlocked.switchRoles {st was : GateStage} {now : Tick} {dt : Nat} (h : st.Interlocked was now dt)
    (old new : Roles) : (st.switchRoles now dt old new).Interlocked was now dt := by
  have low := (h.turnOff old.low .low).ite (c := old.low ≠ new.low) h
  have high := (low.turnOff old.pulsed .high).ite (c := old.pulsed ≠ new.pulsed) low
  exact (high.turnOn true new.low .low).ite (c := old.low ≠ new.low) high

/-- R57. -/
theorem GateStage.Interlocked.runEdges {was : GateStage} {now : Tick} {dt : Nat} (c len : Nat) (l : List Edge) {st : GateStage}
    (h : st.Interlocked was now dt) : (GateStage.runEdges now dt c len l st).2.Interlocked was now dt := by
  induction l generalizing st with
  | nil => exact h
  | cons e l ih =>
    unfold GateStage.runEdges
    split
    · exact ih ((h.turnOn true e.phase e.switch).ite (h.turnOff e.phase e.switch))
    · exact ih h

end Sys2Proof.Machine
end

section
/-! The dead-gap interlock (R65) of every motor since the beginning of a command: the operations that the blocks share. -/

namespace Sys2Proof.Machine

variable {p s : Part}

/-! ## A motor and the part -/

/-- R65, R18: the interlock of a motor's stage since it was `was`, under the motor's own dead time. -/
def Motor.Interlocked (q : Motor) (was : GateStage) (now : Tick) : Prop := q.gates.Interlocked was now q.dt

/-- R65: the interlock of every motor since the part was `s`. -/
def Part.Interlocked (p s : Part) : Prop := ∀ m, (p.motor m).Interlocked (s.motor m).gates p.now

theorem Motor.Interlocked.same {q r : Motor} {was : GateStage} {now : Tick} (h : q.Interlocked was now)
    (hg : r.gates = q.gates) (hc : r.slot.copies = q.slot.copies) : r.Interlocked was now := by
  unfold Motor.Interlocked Motor.dt
  rw [hg, hc]
  exact h

/-- Motors that are as they were have turned no gate on. -/
theorem Part.interlocked_of_motors (h : p.motors = s.motors) : p.Interlocked s := fun m => by
  rw [Part.motor, h]
  exact GateStage.interlocked_self _ _ _

/-- Motors whose gates are all off have turned no gate on. -/
theorem Part.interlocked_of_allOff {p : Part} (h : ∀ m, (p.motor m).gates.AllOff) (s : Part) : p.Interlocked s := fun m =>
  (h m).interlocked _ _ _

/-- An operation that answers, whatever it answers. -/
theorem Part.Interlocked.of_eq {α : Type} {r : α × Part} {a : α} {t s : Part} (h : r.2.Interlocked s) (e : r = (a, t)) :
    t.Interlocked s := by
  rw [e] at h
  exact h

theorem Part.Interlocked.modMotor (h : p.Interlocked s) (m : Slot) {f : Motor → Motor}
    (hf : (p.motor m).Interlocked (s.motor m).gates p.now → (f (p.motor m)).Interlocked (s.motor m).gates p.now) :
    (p.modMotor m f).Interlocked s := by
  intro k
  by_cases hk : k = m
  · rw [hk, Part.modMotor_motor_self]
    exact hf (h m)
  · rw [Part.modMotor_motor_ne p f hk]
    exact h k

/-- A change of a motor that leaves its gates and its gate copies alone. -/
theorem Part.Interlocked.modMotorSame (h : p.Interlocked s) (m : Slot) {f : Motor → Motor}
    (hg : (f (p.motor m)).gates = (p.motor m).gates := by rfl)
    (hc : (f (p.motor m)).slot.copies = (p.motor m).slot.copies := by rfl) : (p.modMotor m f).Interlocked s :=
  h.modMotor m fun hq => hq.same hg hc

/-- A motor with all its gates off, whatever its copies. -/
theorem Part.Interlocked.modMotorOff (h : p.Interlocked s) (m : Slot) {f : Motor → Motor}
    (hf : (f (p.motor m)).gates.AllOff) : (p.modMotor m f).Interlocked s := h.modMotor m fun _ => hf.interlocked _ _ _

theorem Part.Interlocked.mapMotors (h : p.Interlocked s) (f : Motor → Motor)
    (hf : ∀ (q : Motor) was, q.Interlocked was p.now → (f q).Interlocked was p.now) :
    ({ p with motors := p.motors.map f } : Part).Interlocked s := by
  intro k
  simp only [Part.motor, Triple.get_map]
  exact hf _ _ (h k)

theorem Part.Interlocked.modSampler (h : p.Interlocked s) {f : Sampler → Sampler} :
    (p.modSampler f).Interlocked s := h

theorem Part.Interlocked.modLink (h : p.Interlocked s) {f : Link → Link} : (p.modLink f).Interlocked s := h

theorem Part.Interlocked.modUp (h : p.Interlocked s) {f : Upstream → Upstream} : (p.modUp f).Interlocked s := h

theorem Part.Interlocked.notice (h : p.Interlocked s) {n : Notice} : (p.notice n).Interlocked s := h

theorem Part.Interlocked.eachMotor {p s : Part} {f : Slot → Part → Part} (h : p.Interlocked s)
    (hf : ∀ m q, q.Interlocked s → (f m q).Interlocked s) : (p.eachMotor f).Interlocked s := hf _ _ (hf _ _ (hf _ _ h))

/-! ## The end of a command -/

theorem Part.Interlocked.joinAll (h : p.Interlocked s) (l : List FrameBody) : (p.joinAll l).Interlocked s := by
  rw [Part.joinAll_up]
  exact h.modUp

theorem Part.Interlocked.gather (h : p.Interlocked s) : p.gather.2.Interlocked s := h.mapMotors _ fun _ _ hq => hq

theorem Part.Interlocked.settle (h : p.Interlocked s) : p.settle.Interlocked s := h.gather.joinAll _

/-! ## Stops and trips -/

theorem Part.Interlocked.cancelUnfrozen (h : p.Interlocked s) (m : Slot) : (p.cancelUnfrozen m).Interlocked s :=
  (h.modMotorSame m).modSampler

theorem Part.Interlocked.leaveRun (h : p.Interlocked s) (m : Slot) (st : MotorState) (c : Option StopCause) :
    (p.leaveRun m st c).Interlocked s := (h.cancelUnfrozen m).modMotorSame m

theorem Motor.allOff_gates (q : Motor) (now : Tick) : (q.allOff now).gates.AllOff := GateStage.allOff_allOff _ _

/-- R27. -/
theorem Motor.Interlocked.safeAction {q : Motor} {was : GateStage} {now : Tick} (h : q.Interlocked was now) :
    (q.safeAction now).Interlocked was now := GateStage.Interlocked.action h _

/-- R31, R143. -/
theorem Motor.Interlocked.tripped {q : Motor} {was : GateStage} {now : Tick} (h : q.Interlocked was now) (e : TripEvent) :
    (q.tripped e now).Interlocked was now := by
  have acted : (q.tripAction e.cause now).Interlocked was now := by
    unfold Motor.tripAction
    split
    · exact (q.allOff_gates now).interlocked _ _ _
    · exact GateStage.Interlocked.action h _
  exact acted.same rfl rfl

theorem Part.Interlocked.safeStop (h : p.Interlocked s) (c : StopCause) (m : Slot) :
    (p.safeStop c m).Interlocked s := by
  rcases p.driven_cases m with hd | ⟨hr, hs⟩
  · rw [p.safeStop_driven c m hd]
    exact ((h.leaveRun m .safeStop (some c)).modMotor m Motor.Interlocked.safeAction).notice
  · rwa [p.safeStop_idle c m hr hs]

theorem Part.Interlocked.stopAll (h : p.Interlocked s) (c : StopCause) : (p.stopAll c).Interlocked s :=
  h.eachMotor fun m _ hq => hq.safeStop c m

theorem Part.Interlocked.reportFault (h : p.Interlocked s) (m : Slot) : (p.reportFault m).Interlocked s := by
  unfold Part.reportFault
  split <;> exact h

theorem Part.Interlocked.trip (h : p.Interlocked s) (e : TripEvent) (m : Slot) : (p.trip e m).Interlocked s := by
  have left : (((p.leaveRun m .tripped none).modMotor m (·.tripped e p.now)).reportFault m).Interlocked s :=
    ((h.leaveRun m .tripped none).modMotor m (·.tripped e)).reportFault m
  unfold Part.trip
  split
  · exact left
  · split
    · exact left
    · exact h
  · split
    · exact (h.modMotor m (·.tripped e)).reportFault m
    · exact h
  · split
    · exact (h.modMotorOff m (Motor.allOff_gates _ _)).reportFault m
    · exact h
  all_goals exact h

theorem Part.Interlocked.tableTrip (h : p.Interlocked s) (pos : Fin 82) (m : Slot) :
    (p.tableTrip pos m).Interlocked s := by
  unfold Part.tableTrip
  split
  · exact h.trip _ m
  · exact h

/-! ## Reads of the store -/

theorem Part.Interlocked.uncorrectable (h : p.Interlocked s) (pos : Fin 82) :
    (p.uncorrectable pos).Interlocked s := by
  have noticed : ((p.modStore (·.invalidate pos)).notice
      (.tableInvalid (regionIndex pos).1 (regionIndex pos).2)).Interlocked s := h
  unfold Part.uncorrectable
  simp only
  split
  · exact noticed.eachMotor fun m _ hq => hq.tableTrip pos m
  · exact noticed
  · exact noticed.tableTrip pos _

theorem Part.Interlocked.readWord (h : p.Interlocked s) (pos : Fin 82) : (p.readWord pos).2.Interlocked s := by
  unfold Part.readWord
  simp only
  split
  · exact h
  · split
    · exact h.uncorrectable pos
    · split <;> exact h

theorem Part.Interlocked.readFor (h : p.Interlocked s) (m : Slot) (pos : Fin 82) :
    (p.readFor m pos).2.Interlocked s := by
  unfold Part.readFor
  split
  · exact (h.readWord pos).of_eq ‹_›
  · exact ((h.readWord pos).of_eq ‹_›).tableTrip pos m

theorem Part.Interlocked.readAllFor (h : p.Interlocked s) (m : Slot) (l : List (Fin 82)) :
    (p.readAllFor m l).2.Interlocked s := by
  induction l generalizing p with
  | nil => exact h
  | cons pos l ih =>
    unfold Part.readAllFor
    split
    · exact (h.readFor m pos).of_eq ‹_›
    · rename_i hr
      have rest := ih ((h.readFor m pos).of_eq hr)
      split <;> exact rest.of_eq ‹_›

theorem Part.Interlocked.readWords (h : p.Interlocked s) (l : List (Fin 82)) : (p.readWords l).Interlocked s := by
  induction l generalizing p with
  | nil => exact h
  | cons pos l ih => exact ih (h.readWord pos)

theorem Part.Interlocked.readConfig (h : p.Interlocked s) (ks : List Nat) : (p.readConfig ks).2.Interlocked s := by
  unfold Part.readConfig
  simp only
  split <;> exact h.readWords _

end Sys2Proof.Machine
end


section
/-! The dead-gap interlock (R65) along the commands of a motor: commutations, samples, valleys, edges. -/

namespace Sys2Proof.Machine

variable {p s : Part}

/-! ## Commutations (chapter 5) -/

theorem Part.Interlocked.modRun (h : p.Interlocked s) (m : Slot) (f : SeqRun → SeqRun) : (p.modRun m f).Interlocked s :=
  h.modMotorSame m

/-- R88, R89: the edges of this instant are requested under the interlock. -/
theorem Motor.Interlocked.commutateIn {q : Motor} {was : GateStage} {now : Tick} (h : q.Interlocked was now) (pp : Nat)
    (c : Carrier) (r : SeqRun) (kind : CommKind) (late : Bool) (next : Option Nat) :
    (q.commutateIn pp now c r kind late next).Interlocked was now := by
  unfold Motor.commutateIn
  simp only
  split
  · exact h
  · exact GateStage.Interlocked.runEdges _ _ _ h

theorem Part.Interlocked.makeCommutation (h : p.Interlocked s) (m : Slot) (kind : CommKind) (late postponed : Bool)
    (next : Option Nat) : (p.makeCommutation m kind late postponed next).Interlocked s := by
  unfold Part.makeCommutation
  split
  · refine (h.cancelUnfrozen m).modMotor m fun hq => ?_
    have counted := hq.same (r := ((p.cancelUnfrozen m).motor m).modSeqr (·.countKind kind)) rfl rfl
    simp only
    split
    · exact GateStage.Interlocked.switchRoles counted _ _
    · exact counted.commutateIn _ _ _ _ _ _
  · exact h

theorem Part.Interlocked.rampInterval (h : p.Interlocked s) (m : Slot) (t : Nat) : (p.rampInterval m t).2.Interlocked s := by
  unfold Part.rampInterval
  split <;> exact (h.readAllFor m _).of_eq ‹_›

theorem Part.Interlocked.makeWithInterval (h : p.Interlocked s) (m : Slot) (kind : CommKind) (late postponed : Bool) :
    (p.makeWithInterval m kind late postponed).Interlocked s := by
  unfold Part.makeWithInterval
  split
  · split
    · exact ((h.rampInterval m _).of_eq ‹_›).makeCommutation m _ _ _ _
    · exact (h.rampInterval m _).of_eq ‹_›
  · exact h.makeCommutation m _ _ _ _

theorem Part.Interlocked.commutate (h : p.Interlocked s) (m : Slot) (kind : CommKind) (late : Bool) :
    (p.commutate m kind late).Interlocked s := by
  unfold Part.commutate
  split
  · exact h.modMotorSame m
  · exact h.makeWithInterval m kind late false

theorem Part.Interlocked.stall (h : p.Interlocked s) (m : Slot) (step : Fin 6) (count : Nat) :
    (p.stall m step count).Interlocked s := h.trip _ m

theorem Part.Interlocked.rampAtHold (h : p.Interlocked s) (m : Slot) (step : Fin 6) (t confirm hold : Nat) :
    (p.rampAtHold m step t confirm hold).Interlocked s := by
  unfold Part.rampAtHold
  split
  · exact (h.readFor m _).of_eq ‹_›
  · have read := (h.readFor m _).of_eq ‹_›
    split
    · exact read.stall m step _
    · exact (read.modRun m _).commutate m _ _

theorem Part.Interlocked.rampDue (h : p.Interlocked s) (m : Slot) : (p.rampDue m).Interlocked s := by
  unfold Part.rampDue
  split
  · split
    · split
      · exact (h.readFor m _).of_eq ‹_›
      · have read := (h.readFor m _).of_eq ‹_›
        split
        · exact read.rampAtHold m _ _ _ _
        · exact read.commutate m _ _
    all_goals exact h
  · exact h

theorem Part.Interlocked.detectedDue (h : p.Interlocked s) (m : Slot) : (p.detectedDue m).Interlocked s := by
  unfold Part.detectedDue
  split
  · exact h.commutate m _ _
  · exact h

theorem Part.Interlocked.timeoutDue (h : p.Interlocked s) (m : Slot) : (p.timeoutDue m).Interlocked s := by
  unfold Part.timeoutDue
  split
  · split
    · split
      · exact h.stall m _ _
      · exact ((h.modRun m _).modMotorSame m).commutate m _ _
    all_goals exact h
  · exact h

/-! ## Crossings (R77, R79, R83, R84) -/

theorem Part.Interlocked.scheduleDetected (h : p.Interlocked s) (m : Slot) (tzc : Tick) (tStep adv : Nat) :
    (p.scheduleDetected m tzc tStep adv).Interlocked s := by
  unfold Part.scheduleDetected
  simp only
  split
  · exact h.commutate m _ _
  · split
    · exact h.modRun m _
    · exact (h.modMotorSame m).commutate m _ _

theorem Part.Interlocked.handover (h : p.Interlocked s) (m : Slot) (t : Nat) (tzc : Tick) :
    (p.handover m t tzc).Interlocked s := by
  unfold Part.handover
  split
  · exact (h.readFor m _).of_eq ‹_›
  · exact (((h.readFor m _).of_eq ‹_›).modRun m _).scheduleDetected m _ _ _

theorem Part.Interlocked.confirmCrossing (h : p.Interlocked s) (m : Slot) (t confirm hold : Nat) (tzc : Tick) :
    (p.confirmCrossing m t confirm hold tzc).Interlocked s := by
  unfold Part.confirmCrossing
  simp only
  split
  · exact ((h.modRun m _).readFor m _).of_eq ‹_›
  · have read := ((h.modRun m _).readFor m _).of_eq ‹_›
    split
    · exact read.handover m _ _
    · exact read

theorem Part.Interlocked.closedCrossing (h : p.Interlocked s) (m : Slot) (tRef : Tick) (f : Nat) (tzc : Tick) :
    (p.closedCrossing m tRef f tzc).Interlocked s := by
  unfold Part.closedCrossing
  simp only
  split
  · exact (h.readAllFor m _).of_eq ‹_›
  · exact (((h.readAllFor m _).of_eq ‹_›).modRun m _).scheduleDetected m _ _ _

theorem Part.Interlocked.actOnCrossing (h : p.Interlocked s) (m : Slot) (data : SubData) (early : Bool) (tzc : Tick) :
    (p.actOnCrossing m data early tzc).Interlocked s := by
  unfold Part.actOnCrossing
  split
  · split
    · exact h
    · exact h.confirmCrossing m _ _ _ _
  · exact h.closedCrossing m _ _ _
  · exact h

theorem Part.Interlocked.useSample (h : p.Interlocked s) (m : Slot) (sched : Nat) (r : SeqRun) (se : Search) (x : Int)
    (at_ : Tick) : (p.useSample m sched r se x at_).Interlocked s := by
  have found : ∀ early, (p.crossingFound m sched early).Interlocked s := fun early => h.modMotorSame m
  unfold Part.useSample
  split
  · exact h.modRun m _
  · exact (found true).actOnCrossing m _ _ _
  · exact (found false).actOnCrossing m _ _ _

theorem Part.Interlocked.judgeSample (h : p.Interlocked s) (m : Slot) (sched : Nat) (inStep : Bool) (at_ : Tick)
    (float bus : Code) : (p.judgeSample m sched inStep at_ float bus).Interlocked s := by
  unfold Part.judgeSample
  split
  · split
    · split
      · split
        · exact (h.readFor m _).of_eq ‹_›
        · have read := (h.readFor m _).of_eq ‹_›
          split
          · exact read.useSample m _ _ _ _ _
          · exact read
      · exact h
    · exact h
  · exact h

/-! ## Valleys (chapters 2 to 6) -/

theorem Part.Interlocked.valleySetpoint (h : p.Interlocked s) (m : Slot) (period : Byte) :
    (p.valleySetpoint m period).2.Interlocked s := by
  have decided : (p.modMotor m fun q =>
      { q with setq := ((p.motor m).setq.decide period (p.motor m).setq.recs).2 }).Interlocked s :=
    h.modMotorSame m
  unfold Part.valleySetpoint
  simp only
  split
  · split
    · exact (decided.readFor m _).of_eq ‹_›
    · have read := (decided.readFor m _).of_eq ‹_›
      split
      · exact read.safeStop .starved m
      · exact read
  · exact decided

theorem Part.Interlocked.planSineDrive (h : p.Interlocked s) (m : Slot) (sense : Sense) (due : List PlanEntry) :
    (p.planSineDrive m sense due).2.Interlocked s := by
  unfold Part.planSineDrive
  simp only
  split
  · exact (h.readAllFor m _).of_eq ‹_›
  · exact ((h.readAllFor m _).of_eq ‹_›).modMotorSame m

theorem Part.Interlocked.moveSubPhase (h : p.Interlocked s) (m : Slot) (n t : Nat) (dir : Direction) (step : Fin 6) :
    (p.moveSubPhase m n t dir step).2.Interlocked s := by
  unfold Part.moveSubPhase
  split
  · exact h
  · split
    · split
      · exact h
      · split
        · exact (h.readFor m _).of_eq ‹_›
        · exact ((h.readFor m _).of_eq ‹_›).modMotorSame m
    all_goals exact h

theorem Part.Interlocked.planBlockDrive (h : p.Interlocked s) (m : Slot) (dir : Direction) (step : Fin 6) :
    (p.planBlockDrive m dir step).2.Interlocked s := by
  unfold Part.planBlockDrive
  simp only
  split
  · exact (h.readAllFor m _).of_eq ‹_›
  · rename_i ws _ hr
    have moved := ((h.readAllFor m _).of_eq hr).moveSubPhase m (recField ws 1 1) (recField ws 2 0) dir step
    split
    · exact moved.of_eq ‹_›
    · exact (moved.of_eq ‹_›).modMotorSame m

theorem Part.Interlocked.makePostponed (h : p.Interlocked s) (m : Slot) : (p.makePostponed m).Interlocked s := by
  unfold Part.makePostponed
  split
  · exact h.makeWithInterval m _ _ _
  · exact h

theorem Part.Interlocked.planDrive (h : p.Interlocked s) (m : Slot) (due : List PlanEntry) :
    (p.planDrive m due).2.Interlocked s := by
  have made := h.makePostponed m
  unfold Part.planDrive
  simp only
  split
  · exact made
  · split
    · exact (made.readFor m _).of_eq ‹_›
    · have read := (made.readFor m _).of_eq ‹_›
      split
      · exact read.planSineDrive m _ _
      · exact read.planBlockDrive m _ _

theorem Part.Interlocked.readBusChannel (h : p.Interlocked s) (m : Slot) (due : List PlanEntry) :
    (p.readBusChannel m due).2.Interlocked s := by
  unfold Part.readBusChannel
  split
  · split <;> exact (h.readFor m _).of_eq ‹_›
  · exact h

theorem Part.Interlocked.findWindows (h : p.Interlocked s) (m : Slot) (due : List PlanEntry) (d : DriveWindows) (len : Nat) :
    (p.findWindows m due d len).2.Interlocked s := by
  unfold Part.findWindows
  simp only
  split
  · exact (h.readAllFor m _).of_eq ‹_›
  · rename_i hr
    have read := ((h.readAllFor m _).of_eq hr).readBusChannel m due
    split <;> exact read.of_eq ‹_›

theorem Part.Interlocked.joinRequest (h : p.Interlocked s) (m : Slot) (sc : Schedule) (r : Request) :
    (p.joinRequest m sc r).Interlocked s := by
  unfold Part.joinRequest
  split
  · exact h
  · exact h.modSampler.modMotorSame m

theorem Part.Interlocked.joinAtValley (h : p.Interlocked s) (m : Slot) : (p.joinAtValley m).Interlocked s := by
  unfold Part.joinAtValley
  split
  · exact h
  · exact List.foldlRecOn (motive := (Part.Interlocked · s)) _ _ h fun _ hq r _ => hq.joinRequest m _ r

/-- R56, R74. -/
theorem Motor.Interlocked.beginPeriod {q : Motor} {was : GateStage} {now : Tick} (h : q.Interlocked was now) (p id : Nat)
    (n : NewPeriod) : (q.beginPeriod p now id n).Interlocked was now := GateStage.Interlocked.valleyChange h _

theorem Part.Interlocked.beginPeriod (h : p.Interlocked s) (m : Slot) (n : NewPeriod) : (p.beginPeriod m n).Interlocked s := by
  have numbered : ({ p with nextSched := p.nextSched + 1 } : Part).Interlocked s := h
  exact (numbered.modMotor m (·.beginPeriod _ _ n)).joinAtValley m

theorem Part.Interlocked.openPeriod (h : p.Interlocked s) (m : Slot) (period : Byte) :
    (p.openPeriod m period).Interlocked s := by
  have queue := h.valleySetpoint m period
  unfold Part.openPeriod
  split
  · exact queue.of_eq ‹_›
  · have plan := (queue.of_eq ‹_›).readAllFor m (RecordId.plan m).positions
    split
    · exact plan.of_eq ‹_›
    · rename_i ws _ hr
      have drive := (plan.of_eq hr).planDrive m ((planEntries ws).filter (·.due period))
      simp only
      split
      · exact drive.of_eq ‹_›
      · have windows := fun d len => (drive.of_eq ‹_›).findWindows m ((planEntries ws).filter (·.due period)) d len
        split
        · exact (windows _ _).of_eq ‹_›
        · exact ((windows _ _).of_eq ‹_›).beginPeriod m _

theorem Part.Interlocked.openFirst (h : p.Interlocked s) (m : Slot) : (p.openFirst m).Interlocked s :=
  (h.modMotorSame m).openPeriod m _

theorem Part.Interlocked.openNext (h : p.Interlocked s) (m : Slot) : (p.openNext m).Interlocked s := by
  unfold Part.openNext
  split
  · exact h
  · split
    · exact (h.leaveRun m _ _).modMotorOff m (Motor.allOff_gates _ _)
    · exact h.openPeriod m _

/-! ## Edges and pending turn-ons -/

/-- R57. -/
theorem Motor.Interlocked.makeEdges {q : Motor} {was : GateStage} {now : Tick} (h : q.Interlocked was now) :
    (q.makeEdges now).Interlocked was now := by
  unfold Motor.makeEdges
  split
  · exact GateStage.Interlocked.runEdges _ _ _ h
  · exact h

/-- R65. -/
theorem Motor.Interlocked.carryOut {q : Motor} {was : GateStage} {now : Tick} (h : q.Interlocked was now) (x : Phase)
    (g : Switch) : (q.carryOut now x g).Interlocked was now :=
  GateStage.Interlocked.turns h (q.gates.carryOut_turns now q.dt x g)

end Sys2Proof.Machine
end

section
/-! The dead-gap interlock (R65) along the other timed commands: sampling, the supervisor, the cycle. -/

namespace Sys2Proof.Machine

variable {p s : Part}

/-! ## Sampling (chapter 7) and the supervisor -/

theorem Part.Interlocked.joinPlaced (h : p.Interlocked s) (m : Slot) (entry : Fin 6) :
    (p.joinPlaced m entry).Interlocked s := by
  unfold Part.joinPlaced
  split
  · exact h.joinRequest m _ _
  · exact h

theorem Part.Interlocked.freezeMotor (h : p.Interlocked s) (m : Slot) (id : Nat) (entry : Fin 6) (w : WaitItem) :
    (p.freezeMotor m id entry w).Interlocked s := by
  unfold Part.freezeMotor
  split
  · exact h.modSampler.modMotorSame m
  · exact h

theorem Part.Interlocked.freezeBus (h : p.Interlocked s) : p.freezeBus.Interlocked s := by
  unfold Part.freezeBus
  split <;> exact h

theorem Part.Interlocked.grantHead (h : p.Interlocked s) : p.grantHead.Interlocked s := by
  unfold Part.grantHead
  split
  · exact h
  · split
    · exact h.freezeMotor _ _ _ _
    · exact h.freezeBus

theorem Part.Interlocked.missDeadline (h : p.Interlocked s) (r : Waiter) : (p.missDeadline r).Interlocked s := by
  unfold Part.missDeadline
  split
  · exact h
  · split
    · exact h
    · exact h.modSampler.modMotorSame _

theorem Part.Interlocked.checkCurrents (h : p.Interlocked s) (m : Slot) (period : Byte) (r : Request) :
    (p.checkCurrents m period r).Interlocked s := by
  unfold Part.checkCurrents
  split
  · split
    · exact (h.readFor m _).of_eq ‹_›
    · have read := (h.readFor m _).of_eq ‹_›
      split
      · exact read.trip _ m
      · exact read
  · exact h

theorem Part.Interlocked.offerSample (h : p.Interlocked s) (m : Slot) (id : Nat) (r : Request) :
    (p.offerSample m id r).Interlocked s := by
  unfold Part.offerSample
  split
  · exact h.judgeSample m _ _ _ _ _
  · exact h

theorem Part.Interlocked.completeRequest (h : p.Interlocked s) (m : Slot) (sc : Schedule) (r : Request) :
    (p.completeRequest m sc r).Interlocked s := ((h.modMotorSame m).checkCurrents m _ _).offerSample m _ _

theorem Part.Interlocked.giveCode (h : p.Interlocked s) (m : Slot) (id : Nat) (entry : Fin 6) (code : Code) :
    (p.giveCode m id entry code).Interlocked s := by
  have given : (p.modMotor m fun q =>
      q.modScheds (·.modReq id entry fun r => { r with codes := r.codes ++ [code] })).Interlocked s := h.modMotorSame m
  unfold Part.giveCode
  simp only
  split
  · split
    · exact given.completeRequest m _ _
    · exact given
  · exact given

theorem Part.Interlocked.setUv (h : p.Interlocked s) (below : Bool) (c : Code) : (p.setUv below c).Interlocked s := by
  unfold Part.setUv
  split <;> exact h

theorem Part.Interlocked.setOv (h : p.Interlocked s) (high : Bool) (c : Code) : (p.setOv high c).Interlocked s := by
  unfold Part.setOv
  split <;> exact h

theorem Part.Interlocked.stopWhere (h : p.Interlocked s) (b : Bool) (cause : StopCause) :
    (if b then p.stopAll cause else p).Interlocked s := by
  split
  · exact h.stopAll cause
  · exact h

theorem Part.Interlocked.judgeBus (h : p.Interlocked s) (c : Code) : (p.judgeBus c).Interlocked s := by
  unfold Part.judgeBus
  split
  · exact (h.readConfig _).of_eq ‹_›
  · exact (((((h.readConfig _).of_eq ‹_›).setUv _ c).setOv _ c).stopWhere _ _).stopWhere _ _

theorem Part.Interlocked.converted (h : p.Interlocked s) (code : Code) : (p.converted code).Interlocked s := by
  unfold Part.converted
  split
  · exact h
  · simp only
    split
    · exact h.modSampler.giveCode _ _ _ _
    · exact h.modSampler.modSampler.judgeBus code

theorem Part.Interlocked.placeBus (h : p.Interlocked s) : p.placeBus.Interlocked s := by
  unfold Part.placeBus
  split <;> exact ((h.readConfig _).of_eq ‹_›).modSampler

theorem Part.Interlocked.busPlace (h : p.Interlocked s) : p.busPlace.Interlocked s := by
  unfold Part.busPlace
  split
  · split
    · exact ((h.readConfig _).of_eq ‹_›).modSampler
    · have read := (h.readConfig _).of_eq ‹_›
      split
      · exact read.placeBus
      · exact read.modSampler
  · exact h.placeBus
  · exact h

/-! ## The cycle (chapter 1) -/

/-- A change of the timebase that lets no tick pass. -/
theorem Part.Interlocked.modTb (h : p.Interlocked s) {f : Timebase → Timebase}
    (hf : (f p.tb).tick = p.tb.tick := by rfl) : (p.modTb f).Interlocked s := fun m => by
  have now : (p.modTb f).now = p.now := hf
  rw [now, Part.modTb_motor]
  exact h m

theorem Part.Interlocked.syncTrack (h : p.Interlocked s) : p.syncTrack.Interlocked s := by
  unfold Part.syncTrack
  split
  · exact ((h.readConfig _).of_eq ‹_›).modTb
  · have read := (h.readConfig _).of_eq ‹_›
    split
    · exact read.modTb
    · split
      · exact read.modTb
      · split
        · exact ((read.readConfig _).of_eq ‹_›).modTb
        · have read' := (read.readConfig _).of_eq ‹_›
          simp only
          split
          · exact read'.modTb
          · exact read'.modTb.notice

theorem Part.Interlocked.turnCycle (h : p.Interlocked s) : p.turnCycle.Interlocked s := by
  have distributed : ∀ adj, (p.syncTrack.distribute adj).Interlocked s := fun adj =>
    h.syncTrack.mapMotors _ fun q _ hq => by split <;> exact hq
  exact (distributed _).modTb.modSampler

theorem Part.Interlocked.scrub (h : p.Interlocked s) : p.scrub.Interlocked s := h.readWord _

theorem Part.Interlocked.flip (h : p.Interlocked s) : p.flip.2.Interlocked s := h

theorem Part.Interlocked.cycleEnd (h : p.Interlocked s) : p.cycleEnd.Interlocked s := by
  unfold Part.cycleEnd
  split
  · split
    · exact (h.flip.of_eq ‹_›).scrub.turnCycle
    · exact (h.flip.of_eq ‹_›).turnCycle.scrub
  · exact h.turnCycle.scrub

/-! ## Time -/

/-- Time changes no gate's level. -/
theorem GateStage.pass_on (st : GateStage) (now : Tick) (n : Nat) (x : Phase) (g : Switch) :
    ((st.pass now n).gateAt x g).on = (st.gateAt x g).on := by
  have gate : ∀ a : Gate, (a.pass now n).on = a.on := fun a => by
    unfold Gate.pass
    split <;> rfl
  simp only [GateStage.gateAt, GateStage.pass, PerPhase.get_map]
  cases g <;> exact gate _

theorem Part.interlocked_pass (p : Part) (n : Nat) : (p.pass n).Interlocked p := fun m x g hoff hon => by
  rw [p.pass_motor, Motor.pass, GateStage.pass_on, hoff] at hon
  exact absurd hon Bool.false_ne_true

theorem Part.interlocked_upTo (p : Part) (d : Nat) : (p.upTo d).Interlocked p := by
  unfold Part.upTo
  split
  · exact interlocked_of_motors rfl
  · exact p.interlocked_pass d

/-- A timed command: time turns no gate on, and the work at the event's instant is done at one instant. -/
theorem Part.interlocked_takeTimed (p : Part) (e : Instr) {f : Part → Part}
    (hf : ∀ q : Part, q.Interlocked p → (f q).Interlocked p) : (p.takeTimed e f).Interlocked p := by
  unfold Part.takeTimed
  split
  · exact interlocked_of_motors rfl
  · split
    · exact interlocked_of_motors rfl
    · split
      · exact (hf _ (p.interlocked_upTo _)).settle
      · exact interlocked_of_motors rfl

/-- The work of a timed command. -/
theorem Part.Interlocked.timedWork (h : p.Interlocked s) {c : Instr} {f : Part → Part} (hc : c.timedWork = some f) :
    (f p).Interlocked s := by
  cases c <;> cases hc
  case masterCycleEnd => exact h.cycleEnd
  case firstValley m => exact h.openFirst m
  case valley m => exact h.openNext m
  case edge m => exact h.modMotor m Motor.Interlocked.makeEdges
  case pendingTurnOn m x g => exact h.modMotor m (·.carryOut x g)
  case rampCommutation m => exact h.rampDue m
  case detectedCommutation m => exact h.detectedDue m
  case searchTimeout m => exact h.timeoutDue m
  case waitingListJoin m entry => exact h.joinPlaced m entry
  case holdEligible => exact h.modSampler
  case freeze => exact h.grantHead
  case deadline r => exact h.missDeadline r
  case conversionComplete code => exact h.converted code
  case busRequestPlace => exact h.busPlace

end Sys2Proof.Machine
end

section
/-! The dead-gap interlock (R65) along the frames of the link, the resets and the pins; and the step. A frame finds the motors
as the command found them: so ARM, which sets the dead time of a motor, has found its gates as they were. -/

namespace Sys2Proof.Machine

variable {p s : Part}

/-! ## Transfers (chapter 11) -/

/-- The end of a transfer beside a frame's effect. -/
theorem Part.interlocked_endTransfer (p : Part) {fin : Upstream → Upstream} {act : FrameEffect}
    (ha : ∀ q : Part, q.motors = p.motors → (act q).2.Interlocked p) : (p.endTransfer fin act).Interlocked p := by
  unfold Part.endTransfer
  split
  · split
    · exact (ha p rfl).joinAll _
    · exact interlocked_of_motors rfl
  · exact interlocked_of_motors rfl
  · have flipped : ∀ {b : Bool} {q : Part}, p.flip = (b, q) → q.motors = p.motors := fun e => congrArg (·.2.motors) e.symm
    split
    · rename_i q hq
      exact (ha (q.modUp fin) (flipped (q := q) hq)).joinAll _
    · exact ((ha _ (flipped ‹_›)).joinAll _).modUp.joinAll _

theorem Part.Interlocked.badFrame (h : p.Interlocked s) : p.badFrame.Interlocked s := by
  unfold Part.badFrame
  simp only
  split
  · exact h.modLink.stopAll .link
  · exact h.modLink

theorem Part.interlocked_goodFrame (hm : p.motors = s.motors) (act : Bool → FrameEffect)
    (ha : ∀ b (q : Part), q.motors = s.motors → (act b q).2.Interlocked s) : (p.goodFrame act).2.Interlocked s := by
  by_cases hl : p.link.errors < 256
  · rw [p.goodFrame_acted act hl]
    exact ha _ _ hm
  · rw [p.goodFrame_lost act (Nat.le_of_not_lt hl)]
    exact interlocked_of_motors hm

theorem Part.interlocked_request (hm : p.motors = s.motors) (tag code : Byte)
    (f : Part → (ReplyCode × List Byte) × Part) (hf : ∀ q : Part, q.motors = s.motors → (f q).2.Interlocked s) :
    (p.request tag code f).2.Interlocked s := (hf (p.modLink _) hm).gather

theorem Part.Interlocked.route (h : p.Interlocked s) (stream : Byte) (l : List (Fin 8)) :
    (p.route stream l).2.Interlocked s := by
  induction l generalizing p with
  | nil => exact h
  | cons i l ih =>
    unfold Part.route
    split
    · exact ih ((h.readWord _).of_eq ‹_›)
    · have read := (h.readWord _).of_eq ‹_›
      split
      · exact read
      · exact ih read

theorem Motor.Interlocked.takeSetpoint {q : Motor} {was : GateStage} {now : Tick} (h : q.Interlocked was now) (r : SetRec) :
    (q.takeSetpoint r).Interlocked was now := by
  unfold Motor.takeSetpoint
  split <;> exact h

theorem Part.Interlocked.setpoint (h : p.Interlocked s) (stream : Byte) (header : BitVec 16) (r : SetRec) :
    (p.setpoint stream header r).Interlocked s := by
  have routed := h.route stream [0, 1, 2, 3, 4, 5, 6, 7]
  unfold Part.setpoint
  split
  · have counted := routed.of_eq ‹_›
    split
    · exact counted.modLink.modMotor _ (·.takeSetpoint r)
    · exact counted.modLink
  · exact (routed.of_eq ‹_›).modLink

/-! ## The motor commands (chapter 2) -/

/-- R18, R20: the dead time is set in OFF, where no read of the motor's records touches its gates. -/
theorem Part.interlocked_doArm (hm : p.motors = s.motors) (m : Slot) : (p.doArm m).2.Interlocked s := by
  have h := interlocked_of_motors hm
  have read := h.readWords (motorRecords m)
  unfold Part.doArm
  split
  · rename_i off
    have same : (p.readWords (motorRecords m)).motor m = s.motor m := by
      rw [p.readWords_motor (motorRecords m) (by simp [off]), Part.motor, hm, Part.motor]
    unfold Part.armOff
    generalize p.readWords (motorRecords m) = q at read same
    simp only
    split
    · exact read
    · split
      · exact read
      · split
        · exact read
        · refine read.modMotor m fun _ => ?_
          rw [same]
          exact GateStage.interlocked_self _ _ _
  all_goals exact h

theorem Part.Interlocked.doDisarm (h : p.Interlocked s) (m : Slot) : (p.doDisarm m).2.Interlocked s := by
  unfold Part.doDisarm
  split
  · exact h
  · exact h.modMotorOff m (Motor.allOff_gates _ _)
  all_goals exact h

theorem Part.Interlocked.enterStart (h : p.Interlocked s) (m : Slot) (origin : StartOrigin) :
    (p.enterStart m origin).Interlocked s := by
  have taken : ∀ offset, (p.offsetTaken offset).2.Interlocked s := fun offset => by
    unfold Part.offsetTaken
    split <;> exact h
  exact (taken _).modMotorSame m

theorem Part.Interlocked.startFrom (h : p.Interlocked s) (m : Slot) (origin : StartOrigin) :
    (p.startFrom m origin).2.Interlocked s := by
  have read := h.readWords (motorRecords m)
  unfold Part.startFrom
  generalize p.readWords (motorRecords m) = q at read
  simp only
  split
  · exact read
  · split
    · exact read
    · split
      · exact read
      · exact read.enterStart m origin

theorem Part.Interlocked.doStart (h : p.Interlocked s) (m : Slot) : (p.doStart m).2.Interlocked s := by
  unfold Part.doStart
  split
  · exact h.startFrom m .ready
  · exact h.startFrom m .safeStop
  all_goals exact h

theorem Part.Interlocked.doPark (h : p.Interlocked s) (m : Slot) : (p.doPark m).2.Interlocked s := by
  unfold Part.doPark
  split
  · exact h.modMotorSame m
  · exact (h.leaveRun m .ready none).modMotorOff m (Motor.allOff_gates _ _)
  all_goals exact h

theorem Part.Interlocked.doHalt (h : p.Interlocked s) (m : Slot) : (p.doHalt m).2.Interlocked s := by
  unfold Part.doHalt
  split
  · exact h.safeStop .halt m
  · exact h.safeStop .halt m
  all_goals exact h

theorem Part.Interlocked.doRelease (h : p.Interlocked s) (m : Slot) : (p.doRelease m).2.Interlocked s := by
  unfold Part.doRelease
  split
  · exact (h.modMotorOff m (Motor.allOff_gates _ _)).modMotorSame m
  all_goals exact h

/-- R146: the gates go off before the copies may be given up. -/
theorem Part.Interlocked.acknowledge (h : p.Interlocked s) (m : Slot) : (p.acknowledge m).Interlocked s := by
  have read := h.readWords (motorRecords m)
  unfold Part.acknowledge
  generalize p.readWords (motorRecords m) = q at read
  refine (read.modMotorOff m (Motor.allOff_gates _ q.now)).modMotorOff m ?_
  rw [Part.modMotor_motor_self]
  exact Motor.allOff_gates _ _

theorem Part.Interlocked.doAck (h : p.Interlocked s) (m : Slot) : (p.doAck m).2.Interlocked s := by
  unfold Part.doAck
  split
  · split
    · exact h.acknowledge m
    · exact h
  all_goals exact h

theorem Part.interlocked_motorCmd (hm : p.motors = s.motors) (n : BitVec 4) (degraded gated : Bool)
    (act : Slot → Part → ReplyCode × Part) (ha : ∀ m (q : Part), q.motors = s.motors → (act m q).2.Interlocked s) :
    (p.motorCmd n degraded gated act).2.Interlocked s := by
  have h := interlocked_of_motors hm
  unfold Part.motorCmd
  split
  · exact h
  · simp only
    split
    · exact h
    · split
      · exact h
      · exact ha _ _ hm

/-! ## Records and status (chapters 10 and 11) -/

theorem Part.Interlocked.readRecord (h : p.Interlocked s) (region : BitVec 4) (segment : BitVec 2) (index : Byte) :
    (p.readRecord region segment index).2.Interlocked s := by
  unfold Part.readRecord
  split
  · exact h
  · exact h.readWords _

theorem Part.Interlocked.planMismatch (h : p.Interlocked s) (m : Slot) (es : List PlanEntry) :
    (p.planMismatch m es).2.Interlocked s := by
  unfold Part.planMismatch
  split
  · split <;> exact (h.readWord _).of_eq ‹_›
  · exact h

theorem Part.Interlocked.checkPlan (h : p.Interlocked s) (r : RecordId) (ws : List (List Nat)) :
    (p.checkPlan r ws).2.Interlocked s := by
  unfold Part.checkPlan
  split
  · split
    · exact h
    · split <;> exact (h.planMismatch _ _).of_eq ‹_›
  all_goals exact h

/-- R3: a new P restarts the cycle at the instant it is stored. -/
theorem Part.Interlocked.storeRecord (h : p.Interlocked s) (r : RecordId) (mask : BitVec 16)
    (words : List (Nat × List Byte)) : (p.storeRecord r mask words).2.Interlocked s := by
  unfold Part.storeRecord
  simp only
  split
  · exact h
  · split
    · exact h
    · split
      · have checked := (h.checkPlan _ _).of_eq ‹_›
        unfold Part.followP
        split <;> exact checked
      · exact (h.checkPlan _ _).of_eq ‹_›

theorem Part.Interlocked.writeRecord (h : p.Interlocked s) (r : RecordId) (mask : BitVec 16)
    (words : List (Nat × List Byte)) : (p.writeRecord r mask words).2.Interlocked s := by
  unfold Part.writeRecord
  split
  · exact h.storeRecord r mask words
  · simp only
    split
    · exact (h.readWords _).storeRecord r mask words
    · exact h.readWords _

theorem Part.Interlocked.writeFrame (h : p.Interlocked s) (degraded : Bool) (f : WriteFrame) :
    (p.writeFrame degraded f).2.Interlocked s := by
  have staged : ∀ st, (p.modLink fun l => { l with staging := st }).Interlocked s := fun _ => h.modLink
  unfold Part.writeFrame
  split
  · exact staged none
  · split
    · exact staged none
    · split
      · exact staged none
      · split
        · exact staged _
        · split
          · exact staged none
          · exact (staged none).writeRecord _ _ _

theorem Part.Interlocked.clearSection (h : p.Interlocked s) (sc : SectionId) : (p.clearSection sc).Interlocked s := by
  cases sc with
  | timebase => exact h.modTb.mapMotors _ fun _ _ hq => hq
  | motor m => exact h.modMotor m id
  | sampler => exact h.modSampler.mapMotors _ fun _ _ hq => hq
  | link | store | device => exact h

theorem Part.Interlocked.clearCounts (h : p.Interlocked s) (sect : BitVec 4) : (p.clearCounts sect).2.Interlocked s := by
  unfold Part.clearCounts
  split
  · exact h
  · exact h.clearSection _

theorem Part.Interlocked.readStatus (h : p.Interlocked s) (sect : BitVec 4) (page : Byte) :
    (p.readStatus sect page).2.Interlocked s := by
  unfold Part.readStatus
  split <;> exact h

/-! ## Resets (R32 to R34, R70) -/

/-- R15: the read of P at a reset trips no motor, none being RUNNING. -/
theorem Part.resetBlocks_motor (p : Part) {k : Slot} (h : (p.motor k).slot.state ≠ .running) :
    p.resetBlocks.motor k = p.motor k := by
  have read : p.resetP.2.motor k = p.motor k := by
    have word := p.readWord_motor (RecordId.config.pos 0) h
    unfold Part.resetP
    split
    · split
      · rename_i hr
        rwa [hr] at word
      · rename_i hr
        rwa [hr] at word
    · rfl
  exact read

theorem Part.interlocked_resetBlocks (p s : Part) (hs : ∀ m, (p.motor m).slot.state ≠ .running)
    (hg : ∀ m, (p.motor m).gates.AllOff) : p.resetBlocks.Interlocked s :=
  interlocked_of_allOff (fun m => by
    rw [p.resetBlocks_motor (hs m)]
    exact hg m) s

theorem Part.Interlocked.doResetPart (h : p.Interlocked s) (degraded : Bool) :
    (p.doResetPart degraded).2.Interlocked s := by
  have fresh : ∀ q : Motor, q.resetPart.slot.state ≠ .running ∧ q.resetPart.gates.AllOff := fun q => by
    unfold Motor.resetPart
    simp only
    split <;> exact ⟨by simp [Motor.initial, SlotBlock.initial], GateStage.initial_allOff⟩
  unfold Part.doResetPart
  split
  · exact h
  · refine interlocked_resetBlocks { p with motors := p.motors.map Motor.resetPart } s (fun m => ?_) fun m => ?_
    all_goals simp only [Part.motor, Triple.get_map]
    · exact (fresh _).1
    · exact (fresh _).2

theorem Part.interlocked_enableReset (p s : Part) (pins : Triple Bool) : (p.enableReset pins).Interlocked s := by
  refine interlocked_resetBlocks { p with en := true, motors := pins.map Motor.enableReset } s (fun m => ?_) fun m => ?_
  all_goals simp only [Part.motor, Triple.get_map]
  · simp [Motor.enableReset, Motor.initial, SlotBlock.initial]
  · exact GateStage.initial_allOff

/-! ## The step -/

/-- The effect of a frame that finds the motors of `s`. -/
theorem Part.interlocked_frameWork (hm : p.motors = s.motors) {c : Instr} {fin : Upstream → Upstream}
    {act : FrameEffect} (hc : c.frameWork = some (fin, act)) : (act p).2.Interlocked s := by
  have good : ∀ act : Bool → FrameEffect, (∀ b (q : Part), q.Interlocked s → (act b q).2.Interlocked s) →
      (p.goodFrame act).2.Interlocked s := fun act ha =>
    interlocked_goodFrame hm act fun b q hq => ha b q (interlocked_of_motors hq)
  have request : ∀ (tag code : Byte) (f : Bool → Part → (ReplyCode × List Byte) × Part),
      (∀ b (q : Part), q.motors = s.motors → (f b q).2.Interlocked s) →
      (p.goodFrame fun b p => p.request tag code (f b)).2.Interlocked s := fun tag code f hf =>
    interlocked_goodFrame hm _ fun b q hq => interlocked_request hq tag code _ (hf b)
  have command : ∀ (tag : Byte) (n : BitVec 4) (gated : Bool) (op : Slot → Part → ReplyCode × Part),
      (∀ m (q : Part), q.Interlocked s → (op m q).2.Interlocked s) →
      (p.goodFrame fun b p => p.request tag 3#8 fun p => p.motorCmd n b gated op).2.Interlocked s := fun tag n gated op hd =>
    request tag 3#8 _ fun b q hq => interlocked_motorCmd hq n b gated op fun m r hr => hd m r (interlocked_of_motors hr)
  have h := interlocked_of_motors hm
  cases c <;> cases hc
  case idleFrame => exact good _ fun _ _ hq => hq
  case setpoint => exact good _ fun _ _ hq => (hq.setpoint _ _ _).gather
  case badFrame why => exact (Part.Interlocked.badFrame (h.modLink (f := (·.countBad why)))).gather
  case abortedTransfer =>
    exact (Part.Interlocked.badFrame (h.modLink (f := fun l => { l with aborted := bump l.aborted }))).gather
  case readRecord => exact request _ _ _ fun _ _ hq => (interlocked_of_motors hq).readRecord _ _ _
  case writeRecord => exact request _ _ _ fun b _ hq => (interlocked_of_motors hq).writeFrame b _
  case arm => exact request _ _ _ fun b _ hq => interlocked_motorCmd hq _ b true _ fun m _ hr => interlocked_doArm hr m
  case disarm => exact command _ _ _ _ fun m _ => (·.doDisarm m)
  case start => exact command _ _ _ _ fun m _ => (·.doStart m)
  case park => exact command _ _ _ _ fun m _ => (·.doPark m)
  case halt => exact command _ _ _ _ fun m _ => (·.doHalt m)
  case release => exact command _ _ _ _ fun m _ => (·.doRelease m)
  case ackFault => exact command _ _ _ _ fun m _ => (·.doAck m)
  case readStatus => exact request _ _ _ fun _ _ hq => (interlocked_of_motors hq).readStatus _ _
  case clearCounts => exact request _ _ _ fun _ _ hq => (interlocked_of_motors hq).clearCounts _
  case resetPart => exact request _ _ _ fun b _ hq => (interlocked_of_motors hq).doResetPart b
  case badRequest => exact request _ _ _ fun _ _ hq => interlocked_of_motors hq

theorem Part.interlocked_beginTransfer (p : Part) : p.beginTransfer.Interlocked p := by
  have upStream : ∀ {q : Part}, q.Interlocked p → q.upStream.2.Interlocked p := fun hq => by
    unfold Part.upStream
    split <;> exact (hq.readConfig _).of_eq ‹_›
  unfold Part.beginTransfer
  simp only
  split
  · exact interlocked_of_motors rfl
  · exact upStream (interlocked_of_motors rfl)

/-- R65: every command keeps the interlock of every motor since it began. -/
theorem Part.interlocked_after (p : Part) (c : Instr) : (p.after c).Interlocked p := by
  have same : p.Interlocked p := interlocked_of_motors rfl
  rcases instr_kinds c with
    ⟨f, hf⟩ | ⟨fin, act, hf⟩ | ⟨e, pins, rfl⟩ | rfl | ⟨pins, rfl⟩ | rfl | ⟨m, rfl⟩ | ⟨m, rfl⟩ | rfl
  · rw [p.after_of_timedWork hf]
    exact p.interlocked_takeTimed c fun q hq => hq.timedWork hf
  · rw [p.after_of_frameWork hf]
    exact p.interlocked_endTransfer fun q hq => interlocked_frameWork hq hf
  · refine interlocked_of_allOff (fun m => ?_) p
    simp only [Part.after, exec, execPowerOn, Part.powerOn, Part.motor, Part.modUp, Part.poweredOn, Triple.get_map]
    exact GateStage.initial_allOff
  · simp only [Part.after, exec, execEnFall]
    split
    · exact interlocked_of_allOff (fun m => p.enFall_heldOff.gates m (.inl rfl)) p
    · exact same
  · exact p.interlocked_enableReset p pins
  · simp only [Part.after, exec, execSyncEdge]
    split <;> exact interlocked_of_motors rfl
  · simp only [Part.after, exec, execOcPinFall]
    split
    · exact ((same.modMotorSame m).trip _ m).settle
    · exact same
  · simp only [Part.after, exec, execOcPinRise]
    split
    · exact same.modMotorSame m
    · exact same
  · simp only [Part.after, exec, execTransferStart]
    split
    · split
      · exact p.interlocked_beginTransfer.settle
      · exact interlocked_of_motors rfl
    all_goals exact same

end Sys2Proof.Machine
end

section
/-! No step turns both gates of a phase on, or one before its partner has been off for the dead time (R65). -/

namespace Sys2Proof.Machine

/-- R65: every step keeps the interlock of every motor since it began. -/
theorem step_interlocked {s t : State} (h : step s = .next t) : t.part.Interlocked s.part := by
  unfold step at h
  split at h
  · unfold idle at h
    split at h
    · cases h
      exact Part.interlocked_of_motors rfl
    · split at h
      · rw [exec_eq_after] at h
        cases h
        exact Part.interlocked_after { s.part with free := s.part.free + 1 } _
      · cases h
        exact s.part.interlocked_pass 1
  · rw [exec_eq_after] at h
    cases h
    exact s.part.interlocked_after _

/-- Settles O7: a gate's level changes only by requests under the interlock, at one instant and under one dead time; a gate
that is on keeps its partner from being turned on. -/
theorem deadGapBeforeEveryTurnOn : Obligations.DeadGapBeforeEveryTurnOn := fun _ _ m x g h => step_interlocked h m x g

/-- Settles O6: of two gates on together, one was off before; the interlock then has the other off. -/
theorem noShootThroughKept : Obligations.NoShootThroughKept := by
  intro s t before hstep m x ⟨low, high⟩
  have kept := step_interlocked hstep m x
  by_cases was : ((s.part.motor m).gates.gateAt x .low).on = true
  · have off : ((s.part.motor m).gates.gateAt x .high).on = false := by
      simpa using fun on => before m x ⟨was, on⟩
    have partner := (kept .high off high).1
    simp [Switch.other, low] at partner
  · have partner := (kept .low (by simpa using was) low).1
    simp [Switch.other, high] at partner

end Sys2Proof.Machine
end

section
/-! From a duty to a pulse (R51 to R53): the width, its clamp row by row, and the pulse centred in the period. -/

namespace Sys2Proof.Machine

/-! ## The width (R51) -/

theorem widthOf_le {duty : Nat} (p : Nat) (h : duty ≤ 32768) : widthOf duty p ≤ p := by
  have product : duty * p ≤ 32768 * p := Nat.mul_le_mul_right p h
  unfold widthOf
  omega

theorem widthOf_zero (p : Nat) : widthOf 0 p = 0 := by simp [widthOf]

theorem widthOf_full (p : Nat) : widthOf 32768 p = p := by
  unfold widthOf
  omega

/-! ## The clamp (R52) -/

theorem clampWidth_low {w p pmin : Nat} (h : w < pmin) : clampWidth w p pmin = 0 := by simp [clampWidth, h]

theorem clampWidth_mid {w p pmin : Nat} (h : pmin ≤ w) (k : w + pmin ≤ p) : clampWidth w p pmin = w := by
  simp [clampWidth, Nat.not_lt.2 h, k]

theorem clampWidth_high {w p pmin : Nat} (h : pmin ≤ w) (k : p < w + pmin) : clampWidth w p pmin = p := by
  simp [clampWidth, Nat.not_lt.2 h, Nat.not_le.2 k]

/-- R52: a clamped width is that of no pulse, of a full one, or of one that keeps PMIN on both sides. -/
theorem clampWidth_cases (w p pmin : Nat) :
    clampWidth w p pmin = 0 ∨ clampWidth w p pmin = p ∨ (pmin ≤ clampWidth w p pmin ∧ clampWidth w p pmin + pmin ≤ p) := by
  rcases Nat.lt_or_ge w pmin with low | notLow
  · exact .inl (clampWidth_low low)
  · rcases Nat.lt_or_ge p (w + pmin) with high | mid
    · exact .inr (.inl (clampWidth_high notLow high))
    · exact .inr (.inr (by rw [clampWidth_mid notLow mid]; exact ⟨notLow, mid⟩))

/-! ## The pulse (R53) -/

theorem pulseOf_s (w p : Nat) : (pulseOf w p).s = (p - w) / 2 := rfl

theorem pulseOf_e (w p : Nat) : (pulseOf w p).e = (p - w) / 2 + w := rfl

/-- R53: in an even period a pulse of even width lies in the middle. -/
theorem pulseOf_centred {w p : Nat} (hp : p % 2 = 0) (hw : w ≤ p) (even : w % 2 = 0) :
    (pulseOf w p).s + (pulseOf w p).e = p := by
  rw [pulseOf_s, pulseOf_e]
  omega

/-- R53: one of odd width lies half a tick early. -/
theorem pulseOf_half_early {w p : Nat} (hp : p % 2 = 0) (hw : w ≤ p) (odd : w % 2 = 1) :
    (pulseOf w p).s + (pulseOf w p).e + 1 = p := by
  rw [pulseOf_s, pulseOf_e]
  omega

/-- R53: a pulse that leaves PMIN of the period keeps the dead time on both sides. -/
theorem pulseOf_margins {w p pmin dt : Nat} (hdt : 2 * dt + 2 ≤ pmin) (hw : w + pmin ≤ p) :
    dt + 1 ≤ (pulseOf w p).s ∧ (pulseOf w p).e + dt ≤ p - 1 := by
  rw [pulseOf_s, pulseOf_e]
  omega

/-- Settles O15, from the rows of the clamp and the bounds of the pulse. -/
theorem pulsesAreCentred : Obligations.PulsesAreCentred := by
  intro duty p pmin dt hp hduty hdt raw w u
  have hraw : raw ≤ p := widthOf_le p hduty
  have cases : w = 0 ∨ w = p ∨ (pmin ≤ w ∧ w + pmin ≤ p) := clampWidth_cases raw p pmin
  have hw : w ≤ p := by omega
  refine ⟨rfl, hraw, ?_, ?_, ?_, fun _ => clampWidth_low, fun low mid => clampWidth_mid low mid,
    fun low high _ => clampWidth_high low high, ?_, ?_, rfl, rfl, rfl, ?_, ?_, pulseOf_centred hp hw, pulseOf_half_early hp hw, ?_⟩
  · rintro rfl
    exact widthOf_zero p
  · rintro rfl
    exact widthOf_full p
  · intro zero
    exact clampWidth_low (by omega)
  · intro full hpmin
    exact clampWidth_high (by omega) (by omega)
  · omega
  · intro zero
    show (p - w) / 2 = p / 2 ∧ (p - w) / 2 + w = p / 2
    omega
  · intro full
    show (p - w) / 2 = 0 ∧ (p - w) / 2 + w = p
    omega
  · intro pos below
    exact pulseOf_margins hdt (by omega)

end Sys2Proof.Machine
end

section
/-! The edges of one instant (R57): what requesting them one after another comes to, gate by gate (R65, R66). -/

namespace Sys2Proof.Machine

/-! ## The edges due -/

/-- R57: the edge is not made yet, and its carrier time in a period of length `len` is `c`. -/
def Edge.isDue (e : Edge) (c len : Nat) : Bool := !e.made && e.dueAt len == c

theorem Edge.isDue_iff (e : Edge) (c len : Nat) : e.isDue c len = true ↔ e.made = false ∧ e.dueAt len = c := by
  simp [Edge.isDue]

theorem Edge.mem_due {l : List Edge} {e : Edge} {c len : Nat} :
    e ∈ l.filter (·.isDue c len) ↔ e ∈ l ∧ e.made = false ∧ e.dueAt len = c := by
  rw [List.mem_filter, Edge.isDue_iff]

theorem GateStage.runEdges_due (now : Tick) (dt : Nat) {c len : Nat} {e : Edge} (h : e.isDue c len = true) (l : List Edge)
    (st : GateStage) : GateStage.runEdges now dt c len (e :: l) st =
      ({ e with made := true } :: (GateStage.runEdges now dt c len l (st.request now dt e)).1,
        (GateStage.runEdges now dt c len l (st.request now dt e)).2) := by
  unfold Edge.isDue at h
  rw [GateStage.runEdges, if_pos h]

theorem GateStage.runEdges_not_due (now : Tick) (dt : Nat) {c len : Nat} {e : Edge} (h : e.isDue c len = false) (l : List Edge)
    (st : GateStage) : GateStage.runEdges now dt c len (e :: l) st =
      (e :: (GateStage.runEdges now dt c len l st).1, (GateStage.runEdges now dt c len l st).2) := by
  unfold Edge.isDue at h
  rw [GateStage.runEdges, if_neg (by simp [h])]

/-- R57: the edges that are due are marked as made; all others stay. -/
theorem GateStage.runEdges_edges (now : Tick) (dt c len : Nat) (l : List Edge) (st : GateStage) :
    (GateStage.runEdges now dt c len l st).1 =
      l.map fun e => if e.made = false ∧ e.dueAt len = c then { e with made := true } else e := by
  induction l generalizing st with
  | nil => rfl
  | cons e l ih =>
    cases due : e.isDue c len with
    | true => rw [GateStage.runEdges_due now dt due, List.map_cons, if_pos ((e.isDue_iff c len).1 due), ih]
    | false =>
      have notDue : ¬(e.made = false ∧ e.dueAt len = c) := fun k => by simp [(e.isDue_iff c len).2 k] at due
      rw [GateStage.runEdges_not_due now dt due, List.map_cons, if_neg notDue, ih]

/-- R57: the edges that are due are requested in list order. -/
theorem GateStage.runEdges_stage (now : Tick) (dt c len : Nat) (l : List Edge) (st : GateStage) :
    (GateStage.runEdges now dt c len l st).2 = (l.filter (·.isDue c len)).foldl (fun st e => st.request now dt e) st := by
  induction l generalizing st with
  | nil => rfl
  | cons e l ih =>
    cases due : e.isDue c len with
    | true => rw [GateStage.runEdges_due now dt due, List.filter_cons, if_pos due, List.foldl_cons, ih]
    | false => rw [GateStage.runEdges_not_due now dt due, List.filter_cons, if_neg (by simp [due]), ih]

/-! ## One request -/

theorem GateStage.request_on (st : GateStage) (now : Tick) (dt : Nat) {e : Edge} (h : e.on = true) :
    st.request now dt e = st.turnOn now dt true e.phase e.switch := by simp [GateStage.request, h]

theorem GateStage.request_off (st : GateStage) (now : Tick) (dt : Nat) {e : Edge} (h : e.on = false) :
    st.request now dt e = st.turnOff now e.phase e.switch := by simp [GateStage.request, h]

/-- A request touches no other gate. -/
theorem GateStage.request_other (st : GateStage) (now : Tick) (dt : Nat) {e : Edge} {x : Phase} {g : Switch}
    (h : ¬(e.phase = x ∧ e.switch = g)) : (st.request now dt e).gateAt x g = st.gateAt x g := by
  have apart : ¬(x = e.phase ∧ g = e.switch) := fun k => h ⟨k.1.symm, k.2.symm⟩
  cases hon : e.on with
  | true => rw [st.request_on now dt hon, st.turnOn_other now dt true apart]
  | false => rw [st.request_off now dt hon, st.turnOff_other now apart]

/-- R65: the gate `a`, of partner `partner`, after a turn-on request of an edge list. -/
def Gate.requested (a partner : Gate) (now : Tick) (dt : Nat) : Gate :=
  if a.on then a
  else if partner.on = false ∧ partner.gapOver now dt = true then { a with on := true, pend := none }
  else { a with pend := some ⟨now, true⟩ }

theorem Gate.requested_twice (a partner : Gate) (now : Tick) (dt : Nat) :
    (a.requested partner now dt).requested partner now dt = a.requested partner now dt := by
  unfold Gate.requested
  cases on : a.on with
  | true => simp [on]
  | false =>
    by_cases ready : partner.on = false ∧ partner.gapOver now dt = true <;> simp [ready]

/-- R65: a turn-on edge on its gate and on the partner. -/
theorem GateStage.request_turnOn (st : GateStage) (now : Tick) (dt : Nat) {e : Edge} (h : e.on = true) :
    (st.request now dt e).gateAt e.phase e.switch =
        (st.gateAt e.phase e.switch).requested (st.gateAt e.phase e.switch.other) now dt ∧
      (st.request now dt e).gateAt e.phase e.switch.other = st.gateAt e.phase e.switch.other := by
  refine ⟨?_, st.request_other now dt fun k => e.switch.other_ne k.2.symm⟩
  rw [st.request_on now dt h, GateStage.turnOn_self]
  rfl

/-- R66: a turn-off edge on its gate. -/
theorem GateStage.request_turnOff (st : GateStage) (now : Tick) (dt : Nat) {e : Edge} (h : e.on = false) :
    ((st.request now dt e).gateAt e.phase e.switch).on = false ∧
      ((st.request now dt e).gateAt e.phase e.switch).pend = none := by
  rw [st.request_off now dt h, GateStage.turnOff_self]
  split
  · exact ⟨rfl, rfl⟩
  · rename_i off
    exact ⟨by simpa using off, rfl⟩

/-! ## Requests one after another -/

/-- A fold through a member: what holds until it, what the member makes of it, and what holds from then on. -/
theorem foldl_reaches {α β : Type} {f : β → α → β} {P Q : β → Prop} {a : α} (l : List α) {b : β} (hmem : a ∈ l)
    (before : ∀ x ∈ l, x ≠ a → ∀ b, P b → P (f b x)) (meets : ∀ b, P b → Q (f b a)) (after : ∀ x ∈ l, ∀ b, Q b → Q (f b x))
    (h : P b) : Q (l.foldl f b) := by
  induction l generalizing b with
  | nil => cases hmem
  | cons x l ih =>
    by_cases hx : x = a
    · subst hx
      exact List.foldlRecOn (motive := Q) l f (meets b h) fun b hb y hy => after y (.tail x hy) b hb
    · exact ih ((List.mem_cons.1 hmem).resolve_left (Ne.symm hx)) (fun y hy => before y (.tail x hy))
        (fun y hy => after y (.tail x hy)) (before x (.head l) hx b h)

section
variable {now : Tick} {dt : Nat} {l : List Edge} (st : GateStage)

/-- A gate that no edge names. -/
theorem GateStage.requests_other {x : Phase} {g : Switch} (h : ∀ e ∈ l, ¬(e.phase = x ∧ e.switch = g)) :
    (l.foldl (fun st e => st.request now dt e) st).gateAt x g = st.gateAt x g :=
  List.foldlRecOn (motive := fun st' : GateStage => st'.gateAt x g = st.gateAt x g) l _ rfl fun _ hst e he =>
    (GateStage.request_other _ now dt (h e he)).trans hst

/-- R66: a turn-off alone on its gate leaves it off, with no turn-on pending. -/
theorem GateStage.requests_off {e : Edge} (he : e ∈ l) (off : e.on = false)
    (alone : ∀ f ∈ l, f.phase = e.phase → f.switch = e.switch → f = e) :
    ((l.foldl (fun st e => st.request now dt e) st).gateAt e.phase e.switch).on = false ∧
      ((l.foldl (fun st e => st.request now dt e) st).gateAt e.phase e.switch).pend = none := by
  refine foldl_reaches (P := fun _ : GateStage => True)
    (Q := fun st : GateStage => (st.gateAt e.phase e.switch).on = false ∧ (st.gateAt e.phase e.switch).pend = none) l he
    (fun _ _ _ _ _ => trivial) (fun st _ => st.request_turnOff now dt off) (fun f hf st hst => ?_) trivial
  by_cases same : f = e
  · rw [same]
    exact st.request_turnOff now dt off
  · rwa [st.request_other now dt fun k => same (alone f hf k.1 k.2)]

/-- R65: a turn-on alone in its phase is carried out or pending as its gate and the partner were. -/
theorem GateStage.requests_on {e : Edge} (he : e ∈ l) (on : e.on = true) (alone : ∀ f ∈ l, f.phase = e.phase → f = e) :
    (l.foldl (fun st e => st.request now dt e) st).gateAt e.phase e.switch =
      (st.gateAt e.phase e.switch).requested (st.gateAt e.phase e.switch.other) now dt := by
  have apart : ∀ f ∈ l, f ≠ e → ∀ (st : GateStage) g, (st.request now dt f).gateAt e.phase g = st.gateAt e.phase g :=
    fun f hf hne st g => st.request_other now dt fun k => hne (alone f hf k.1)
  refine (foldl_reaches
    (P := fun st' : GateStage => st'.gateAt e.phase e.switch = st.gateAt e.phase e.switch ∧
      st'.gateAt e.phase e.switch.other = st.gateAt e.phase e.switch.other)
    (Q := fun st' : GateStage => st'.gateAt e.phase e.switch =
        (st.gateAt e.phase e.switch).requested (st.gateAt e.phase e.switch.other) now dt ∧
      st'.gateAt e.phase e.switch.other = st.gateAt e.phase e.switch.other)
    l he (fun f hf hne st' h => ?_) (fun st' h => ?_) (fun f hf st' h => ?_) ⟨rfl, rfl⟩).1
  · rwa [apart f hf hne, apart f hf hne]
  · rw [(st'.request_turnOn now dt on).1, (st'.request_turnOn now dt on).2, h.1]
    exact ⟨by rw [h.2], h.2⟩
  · by_cases same : f = e
    · rw [same, (st'.request_turnOn now dt on).1, (st'.request_turnOn now dt on).2, h.1, h.2]
      exact ⟨Gate.requested_twice _ _ _ _, rfl⟩
    · rwa [apart f hf same, apart f hf same]

end

end Sys2Proof.Machine
end

section
/-! EDGE and PENDING_TURN_ON at their instant (R57, R65, R66, R68). -/

namespace Sys2Proof.Machine

theorem later_ticksFrom (now valley : Tick) : later valley (ticksFrom now valley) = now := by
  unfold later ticksFrom
  rw [BitVec.ofNat_toNat, BitVec.setWidth_eq]
  bv_omega

/-- R57: an edge that is due now makes EDGE due. -/
theorem Part.edge_due {p : Part} {m : Slot} {c : Carrier} {sc : Schedule} (hs : (p.motor m).slot.state = .running)
    (hc : (p.motor m).pace.carrier = some c) (hl : (p.motor m).scheds.latest = some sc) {e : Edge} (he : e ∈ sc.edges)
    (hmade : e.made = false) (hdue : e.dueAt c.len = ticksFrom p.now c.valley) : p.delay (.edge m) = some 0 := by
  simp only [Part.delay, Part.edgeDelay, hs, hc, hl]
  refine List.min?_eq_some_iff.2 ⟨List.mem_map.2 ⟨e, by simp [he, hmade], ?_⟩, fun _ _ => Nat.zero_le _⟩
  rw [hdue, later_ticksFrom, ticksFrom_self]

/-- R65: a turn-on whose partner has been off for the dead time makes PENDING_TURN_ON due. -/
theorem Part.pend_due {p : Part} {m : Slot} {x : Phase} {g : Switch} {pd : PendOn}
    (hp : ((p.motor m).gates.gateAt x g).pend = some pd) (hoff : ((p.motor m).gates.gateAt x g.other).on = false)
    (hgap : ((p.motor m).gates.gateAt x g.other).gapOver p.now (p.motor m).dt = true) :
    p.delay (.pendingTurnOn m x g) = some 0 := by
  simp [Part.delay, Part.pendDelay, hp, hoff, hgap]

/-- A change of a motor that leaves it without a complete schedule to hand on. -/
theorem Part.Quiet.modMotorHanded {p : Part} (h : p.Quiet) {m : Slot} {f : Motor → Motor}
    (hf : ∀ sc ∈ (f (p.motor m)).scheds.latest.toList ++ (f (p.motor m)).scheds.older, sc.complete = false) :
    (p.modMotor m f).Quiet := by
  refine ⟨h.outbox, fun k => ?_⟩
  by_cases hk : k = m
  · rwa [hk, modMotor_motor_self]
  · rw [modMotor_motor_ne _ _ hk]
    exact h.handed k

/-- A change of a motor by what it makes of that motor. -/
theorem Part.modMotor_congr {p : Part} {m : Slot} {f g : Motor → Motor} (h : f (p.motor m) = g (p.motor m)) :
    p.modMotor m f = p.modMotor m g := by
  unfold Part.motor at h
  rw [Part.modMotor, Part.modMotor, h]

/-- R57: the edges of this instant made. -/
theorem Motor.makeEdges_eq {q : Motor} {c : Carrier} {sc : Schedule} (hc : q.pace.carrier = some c)
    (hl : q.scheds.latest = some sc) (now : Tick) :
    q.makeEdges now = { q with
      gates := (sc.edges.filter (·.isDue (ticksFrom now c.valley) c.len)).foldl (fun st e => st.request now q.dt e) q.gates
      scheds := { q.scheds with
        latest := some { sc with edges := sc.edges.map fun e =>
          if e.made = false ∧ e.dueAt c.len = ticksFrom now c.valley then { e with made := true } else e } } } := by
  simp only [Motor.makeEdges, hc, hl, GateStage.runEdges_edges, GateStage.runEdges_stage]

/-- R57: making edges completes no schedule. -/
theorem Part.Quiet.makeEdges {p : Part} (h : p.Quiet) {m : Slot} {c : Carrier} {sc : Schedule}
    (hc : (p.motor m).pace.carrier = some c) (hl : (p.motor m).scheds.latest = some sc) :
    (p.modMotor m (·.makeEdges p.now)).Quiet := by
  refine h.modMotorHanded fun sc' hsc => ?_
  rw [Motor.makeEdges_eq hc hl] at hsc
  have handed := h.handed m
  rw [hl] at handed
  rcases List.mem_append.1 hsc with latest | older
  · rw [Option.toList_some, List.mem_singleton] at latest
    rw [latest]
    exact handed sc (by simp)
  · exact handed sc' (List.mem_append_right _ older)

/-- R57: EDGE at the instant of an edge. -/
theorem exec_edge {s : State} {m : Slot} {c : Carrier} {sc : Schedule} {e : Edge} (he : s.part.en = true)
    (hq : s.part.Quiet) (hs : (s.part.motor m).slot.state = .running) (hc : (s.part.motor m).pace.carrier = some c)
    (hl : (s.part.motor m).scheds.latest = some sc) (hmem : e ∈ sc.edges) (hmade : e.made = false)
    (hdue : e.dueAt c.len = ticksFrom s.part.now c.valley) :
    exec (.edge m) s = .next { s with part := s.part.modMotor m (·.makeEdges s.part.now) } := by
  rw [exec_eq_after, s.part.after_of_timedWork rfl, Part.takeTimed_quiet _ _ _ he (Part.edge_due hs hc hl hmem hmade hdue) rfl
    (hq.makeEdges hc hl)]

/-- R65, R68: a pending turn-on carried out at an instant, counted where it is late and one that is counted. -/
theorem GateStage.carryOut_ready {st : GateStage} {now : Tick} {dt : Nat} {x : Phase} {g : Switch} {pd : PendOn}
    (hp : (st.gateAt x g).pend = some pd) (hr : st.pendReady now dt x g = true) :
    st.carryOut now dt x g = { st.setGate x g { st.gateAt x g with on := true, pend := none } with
      delays := if pd.counted = true ∧ pd.reqAt ≠ now then bump st.delays else st.delays } := by
  simp only [GateStage.carryOut, hp, hr, if_true, GateStage.countDelay]
  by_cases late : pd.counted = true ∧ pd.reqAt ≠ now
  · rw [if_pos late, if_pos (by simpa using late)]
    rfl
  · rw [if_neg late, if_neg (by simpa using late)]
    rfl

/-- Settles O27: the edges due are a fold of requests, read gate by gate; a pending turn-on that is ready is carried out. -/
theorem edgesAreMadeAtTheirInstant : Obligations.EdgesAreMadeAtTheirInstant := by
  constructor
  · intro s m c sc he hq hs hc hl due q hdue
    obtain ⟨e, hmem, hmade, hat⟩ := hdue
    have mem : ∀ {f}, f ∈ sc.edges.filter (·.isDue (ticksFrom s.part.now c.valley) c.len) ↔ due f := Edge.mem_due
    refine ⟨_, exec_edge he hq hs hc hl hmem hmade hat, rfl, ?_⟩
    simp only [Part.modMotor_motor_self]
    refine ⟨Part.modMotor_congr (by rw [Motor.makeEdges_eq hc hl]), ?_⟩
    rw [Motor.makeEdges_eq hc hl]
    refine ⟨fun x g unnamed => ?_, fun e hd off alone => ?_, fun e hd on alone => ?_⟩
    · exact GateStage.requests_other _ fun f hf => unnamed f (mem.1 hf)
    · exact GateStage.requests_off _ (mem.2 hd) off fun f hf => alone f (mem.1 hf)
    · exact GateStage.requests_on _ (mem.2 hd) on fun f hf => alone f (mem.1 hf)
  · intro s m x g pd he hq hp hoff hgap
    have ready : (s.part.motor m).gates.pendReady s.part.now (s.part.motor m).dt x g = true := by
      simp [GateStage.pendReady, hp, hoff, hgap]
    rw [exec_eq_after, s.part.after_of_timedWork rfl,
      Part.takeTimed_quiet _ _ _ he (Part.pend_due hp hoff hgap) rfl (hq.modMotor rfl)]
    congr 2
    refine Part.modMotor_congr ?_
    rw [Motor.carryOut, Motor.modGates, GateStage.carryOut_ready hp ready]

end Sys2Proof.Machine
end

section
/-! The instant of a crossing between two samples (R82), and the values of a request from its codes (R104, R105). -/

namespace Sys2Proof.Machine

/-! ## Crossings -/

theorem ticksFrom_lt (a b : Tick) : ticksFrom a b < 2 ^ 32 := BitVec.isLt _

/-- R1: of an instant n ticks later, n modulo 2^32 ticks have passed. -/
theorem ticksFrom_later {t : Tick} {n : Nat} (h : n < 2 ^ 32) : ticksFrom (later t n) t = n := by
  have : later t n - t = BitVec.ofNat 32 n := by
    unfold later
    bv_omega
  rw [ticksFrom, this, BitVec.toNat_ofNat, Nat.mod_eq_of_lt h]

/-- R82: the share of the ticks between two samples that lies before the crossing. -/
theorem crossingShare_le (ticks a b : Nat) : ticks * a / (a + b) ≤ ticks :=
  Nat.div_le_of_le_mul (by rw [Nat.mul_comm]; exact Nat.mul_le_mul_right _ (Nat.le_add_right a b))

/-- R82: the crossing lies within the two samples' instants, at the floor of its share. -/
theorem ticksFrom_interpolate (prev : PrevSample) (x : Int) (now : Tick) :
    ticksFrom (interpolate prev x now) prev.instant =
      ticksFrom now prev.instant * prev.x.natAbs / (prev.x.natAbs + x.natAbs) :=
  ticksFrom_later (Nat.lt_of_le_of_lt (crossingShare_le _ _ _) (ticksFrom_lt _ _))

/-- R82: a sample that is on the crossing is the crossing. -/
theorem interpolate_zero {prev : PrevSample} (h : prev.x ≠ 0) (now : Tick) : interpolate prev 0 now = now := by
  have pos : 0 < prev.x.natAbs := Int.natAbs_pos.2 h
  rw [interpolate, Int.natAbs_zero, Nat.add_zero, Nat.mul_div_cancel _ pos, later_ticksFrom]

/-! ## Values -/

/-- R104: the flag RAIL of a code at either end of the converter's range. -/
theorem Code.isRail_eq (c : Code) : Code.isRail c = decide (c.toNat = 0 ∨ c.toNat = 4095) := by
  rw [Code.isRail, Bool.decide_or]
  congr 1
  all_goals
    rw [beq_eq_decide, decide_eq_decide, ← BitVec.toNat_inj]
    rfl

theorem measured_eq (v : Int) (c : Code) : measured v c = ⟨v, decide (c.toNat = 0 ∨ c.toNat = 4095), false⟩ := by
  rw [measured, Code.isRail_eq]

/-- R105: a current's value, from its code and its zero offset. -/
def Request.current (r : Request) (c : Code) (i : Nat) : Reading := measured ((c.toNat : Int) - r.offsets.getD i 0) c

/-- R105: a value that is its code. -/
def plainReading (c : Code) : Reading := measured (c.toNat : Int) c

section
variable {r : Request} (a b c : Code)

theorem Request.form_linkA (h : r.kind = .linkA) : r.form [a] = [r.current a 0] := by
  rw [Request.form, h]
  rfl

theorem Request.form_linkB (h : r.kind = .linkB) : r.form [a] = [measured (-(r.current a 0).value) a] := by
  rw [Request.form, h]
  rfl

theorem Request.form_blockOn (h : r.kind = .blockOn) :
    r.form [a, b, c] = [r.current a 0, plainReading b, plainReading c] := by
  rw [Request.form, h]
  rfl

theorem Request.form_aux (h : r.kind = .auxValley ∨ r.kind = .auxPeak) (codes : List Code) :
    r.form codes = codes.map plainReading := by
  have listed : r.form codes = (List.range codes.length).map fun k => plainReading (codes.getD k 0#12) := by
    rcases h with h | h <;> rw [Request.form, h] <;> rfl
  rw [listed]
  refine List.ext_getElem (by simp) fun k hk hk' => ?_
  have : k < codes.length := by simpa using hk'
  simp [List.getD_eq_getElem?_getD, this]

theorem Request.form_legPair (h : r.kind = .legPair) : r.form [a, b] = legReadings r.legs (r.current a 0) (r.current b 1) := by
  rw [Request.form, h]
  rfl

end

/-- R105: the third value of a leg pair. -/
def Reading.reconstruct (a b : Reading) : Reading := ⟨-(a.value + b.value), a.rail || b.rail, true⟩

/-- Two phases in order and the third. -/
theorem phase_triples {x y z : Phase} (hxy : x.toNat < y.toNat) (hzx : z ≠ x) (hzy : z ≠ y) :
    (x = .u ∧ y = .v ∧ z = .w) ∨ (x = .u ∧ y = .w ∧ z = .v) ∨ (x = .v ∧ y = .w ∧ z = .u) := by
  cases x <;> cases y <;> simp [Phase.toNat] at hxy <;> cases z <;> simp at hzx hzy ⊢

/-- R105: the two measured values of a leg pair stand at their phases, the reconstructed one at the third. -/
theorem legReadings_at {x y z : Phase} (a b : Reading) (hxy : x.toNat < y.toNat) (hzx : z ≠ x) (hzy : z ≠ y) :
    let out := legReadings [x, y] a b
    out.length = 3 ∧ out[x.toNat]? = some a ∧ out[y.toNat]? = some b ∧ out[z.toNat]? = some (a.reconstruct b) ∧
      (out.map (·.value)).sum = 0 := by
  have sums : ∀ i j : Int, i + (j + (-(i + j) + 0)) = 0 ∧ i + (-(i + j) + (j + 0)) = 0 ∧ -(i + j) + (i + (j + 0)) = 0 := by
    omega
  obtain ⟨uv, uw, vw⟩ := sums a.value b.value
  rcases phase_triples hxy hzx hzy with ⟨rfl, rfl, rfl⟩ | ⟨rfl, rfl, rfl⟩ | ⟨rfl, rfl, rfl⟩
  · exact ⟨rfl, rfl, rfl, rfl, uv⟩
  · exact ⟨rfl, rfl, rfl, rfl, uw⟩
  · exact ⟨rfl, rfl, rfl, rfl, vw⟩

/-- R105: a 12-bit code less a zero offset of the same range. -/
theorem current_bounds (c : Code) {o : Nat} (h : o ≤ 4095) : -4095 ≤ (c.toNat : Int) - o ∧ (c.toNat : Int) - o ≤ 4095 := by
  have : c.toNat < 4096 := c.isLt
  omega

theorem getD_le {l : List Nat} {n : Nat} (h : ∀ o ∈ l, o ≤ n) (i : Nat) : l.getD i 0 ≤ n := by
  rw [List.getD_eq_getElem?_getD]
  cases hi : l[i]? with
  | none => exact Nat.zero_le n
  | some o => exact h o (List.mem_of_getElem? hi)

/-- Settles O17: the crossing's share of the ticks between the samples, and the forms of a request by its kind. -/
theorem crossingInstantsAndRequestValues : Obligations.CrossingInstantsAndRequestValues := by
  refine ⟨fun prev x now hprev => ⟨ticksFrom_interpolate prev x now, ?_, ?_⟩, ?_⟩
  · rw [ticksFrom_interpolate]
    exact crossingShare_le _ _ _
  · rintro rfl
    exact interpolate_zero hprev now
  intro r a b c offsets rail current plain
  have hcurrent : ∀ k i, r.current k i = current k i := fun _ _ => measured_eq _ _
  have hplain : ∀ k, plainReading k = plain k := fun _ => measured_eq _ _
  refine ⟨fun hk => ?_, fun hk => ?_, fun hk => ?_, fun hk => ?_, fun hk x y z hlegs hxy hzx hzy => ?_⟩
  · rw [Request.form_linkA a hk, hcurrent]
  · rw [Request.form_linkB a hk, hcurrent, measured_eq]
  · rw [Request.form_blockOn a b c hk, hcurrent, hplain, hplain]
  · simp only [Request.form_aux hk, List.map_cons, List.map_nil, hplain, and_self]
  · rw [Request.form_legPair a b hk, hlegs, hcurrent, hcurrent]
    obtain ⟨length, first, second, third, sum⟩ := legReadings_at (current a 0) (current b 1) hxy hzx hzy
    refine ⟨length, first, second, third, sum, ?_⟩
    rintro rfl small
    have ba := current_bounds a (getD_le small 0)
    have bb := current_bounds b (getD_le small 1)
    simp only [current]
    omega

end Sys2Proof.Machine
end

section
/-! The order of an edge list (R55), and the edges that a commutation in the middle of a period leaves and enters (R88). -/

namespace Sys2Proof.Machine

/-! ## The order of R55 -/

theorem Phase.toNat_inj {x y : Phase} : x.toNat = y.toNat ↔ x = y := by
  cases x <;> cases y <;> simp [Phase.toNat]

theorem Edge.Ordered.trans {a b c : Edge} (h : a.Ordered b) (k : b.Ordered c) : a.Ordered c := by
  unfold Edge.Ordered at *
  rw [← Phase.toNat_inj] at *
  cases hb : b.switch <;> grind

/-- R55: of two edges the one that is not before the other may stand behind it. -/
theorem Edge.ordered_of_before {a b : Edge} :
    (a.before b = true → a.Ordered b) ∧ (a.before b = false → b.Ordered a) := by
  unfold Edge.before Edge.Ordered
  by_cases time : a.carrierTime = b.carrierTime
  · by_cases phase : a.phase = b.phase
    · cases ha : a.switch <;> cases hb : b.switch <;> simp [time, phase]
    · have := mt Phase.toNat_inj.1 phase
      grind
  · grind

theorem insertEdge_perm (a : Edge) (l : List Edge) : (insertEdge a l).Perm (a :: l) := by
  induction l with
  | nil => exact .refl _
  | cons b l ih =>
    unfold insertEdge
    split
    · exact .refl _
    · exact (ih.cons b).trans (.swap a b l)

theorem insertEdge_ordered (a : Edge) {l : List Edge} (h : l.Pairwise Edge.Ordered) : (insertEdge a l).Pairwise Edge.Ordered := by
  induction l with
  | nil => exact List.pairwise_singleton _ _
  | cons b l ih =>
    obtain ⟨hb, hl⟩ := List.pairwise_cons.1 h
    unfold insertEdge
    split
    · rename_i before
      have ab := Edge.ordered_of_before.1 before
      refine List.pairwise_cons.2 ⟨fun e he => ?_, h⟩
      rcases List.mem_cons.1 he with rfl | he
      · exact ab
      · exact ab.trans (hb e he)
    · rename_i before
      refine List.pairwise_cons.2 ⟨fun e he => ?_, ih hl⟩
      rcases List.mem_cons.1 ((insertEdge_perm a l).mem_iff.1 he) with rfl | he
      · exact Edge.ordered_of_before.2 (by simpa using before)
      · exact hb e he

theorem sortEdges_append (l : List Edge) (a : Edge) : sortEdges (l ++ [a]) = insertEdge a (sortEdges l) := by
  simp [sortEdges]

theorem sortEdges_perm (l : List Edge) : (sortEdges l).Perm l := by
  induction l using List.reverseRecOn with
  | nil => exact .refl _
  | append_singleton l a ih =>
    rw [sortEdges_append]
    exact (insertEdge_perm a _).trans ((ih.cons a).trans (List.perm_append_singleton a l).symm)

theorem sortEdges_ordered (l : List Edge) : (sortEdges l).Pairwise Edge.Ordered := by
  induction l using List.reverseRecOn with
  | nil => exact .nil
  | append_singleton l a ih =>
    rw [sortEdges_append]
    exact insertEdge_ordered a ih

/-! ## Requests in the order of R55 -/

/-- R66: a turn-off behind every other request for its gate leaves it off, with no turn-on pending. -/
theorem GateStage.requests_off_last {now : Tick} {dt : Nat} {l : List Edge} (st : GateStage) (sorted : l.Pairwise Edge.Ordered)
    {e : Edge} (he : e ∈ l) (off : e.on = false)
    (last : ∀ f ∈ l, f.phase = e.phase → f.switch = e.switch → f = e ∨ f.carrierTime < e.carrierTime) :
    ((l.foldl (fun st e => st.request now dt e) st).gateAt e.phase e.switch).on = false ∧
      ((l.foldl (fun st e => st.request now dt e) st).gateAt e.phase e.switch).pend = none := by
  obtain ⟨before, after, rfl⟩ := List.append_of_mem he
  rw [List.foldl_append, List.foldl_cons]
  refine List.foldlRecOn (motive := fun st : GateStage => (st.gateAt e.phase e.switch).on = false ∧
    (st.gateAt e.phase e.switch).pend = none) after _ (GateStage.request_turnOff _ now dt off) fun st hst f hf => ?_
  have ordered : e.Ordered f := (List.pairwise_cons.1 (List.pairwise_append.1 sorted).2.1).1 f hf
  by_cases named : f.phase = e.phase ∧ f.switch = e.switch
  · rcases last f (by simp [hf]) named.1 named.2 with rfl | early
    · exact st.request_turnOff now dt off
    · rcases ordered with late | ⟨same, -⟩ <;> omega
  · rwa [st.request_other now dt named]

/-! ## The roles of a step (R71) -/

/-- R71: a commutation moves the low role or the pulsed role, and not both. -/
theorem roles_change (dir : Direction) (step : Fin 6) :
    ((rolesOf step).low ≠ (rolesOf (nextStep dir step)).low ∧ (rolesOf step).pulsed = (rolesOf (nextStep dir step)).pulsed) ∨
      ((rolesOf step).low = (rolesOf (nextStep dir step)).low ∧
        (rolesOf step).pulsed ≠ (rolesOf (nextStep dir step)).pulsed) := by
  revert step
  cases dir <;> decide

theorem roles_apart (step : Fin 6) : (rolesOf step).low ≠ (rolesOf step).pulsed := by
  revert step
  decide

/-! ## The edges of a commutation (R88) -/

theorem filter_or_perm {α : Type} (f g : α → Bool) (l : List α) :
    (l.filter fun a => f a || g a).Perm (l.filter f ++ l.filter fun a => !f a && g a) := by
  have split := (List.filter_append_perm f (l.filter fun a => f a || g a)).symm
  rw [List.filter_filter, List.filter_filter] at split
  refine split.trans (.of_eq ?_)
  congr 2 <;> (funext a; cases f a <;> simp)

theorem GateStage.highWanted_iff (st : GateStage) (x : Phase) :
    st.highWanted x = true ↔ (st.gateAt x .high).on = true ∨ (st.gateAt x .high).pend.isSome = true := by
  simp [GateStage.highWanted]

section
variable (q : Motor) (p ct : Nat) (r : SeqRun) (next : Fin 6) (edges : List Edge)

/-- R88: the edges that a commutation enters, and the ones still to come that it enters again. -/
theorem Motor.commutationRequests_eq :
    q.commutationRequests p ct r next edges =
      if (rolesOf r.step).pulsed = (rolesOf next).pulsed then
        commEdges p ct r.pulse (rolesOf r.step) (rolesOf next) (q.gates.highWanted (rolesOf r.step).pulsed) ++
          edges.filter fun e => !e.made && e.phase == (rolesOf next).pulsed
      else commEdges p ct r.pulse (rolesOf r.step) (rolesOf next) (q.gates.highWanted (rolesOf r.step).pulsed) := by
  unfold Motor.commutationRequests commEdges
  simp only [← GateStage.highWanted_iff, Pulse.isPartial, Bool.and_eq_true, decide_eq_true_eq]
  by_cases pulsed : (rolesOf r.step).pulsed = (rolesOf next).pulsed
  · simp [pulsed]
  · simp only [pulsed, if_false, ne_eq, not_false_eq_true, if_true, ite_not]
    congr 2
    by_cases zero : r.pulse.w = 0
    · simp [zero]
    · simp [zero, Nat.pos_of_ne_zero]

theorem commEdges_made {p ct : Nat} {u : Pulse} {old new : Roles} {wasOn : Bool} :
    ∀ e ∈ commEdges p ct u old new wasOn, e.made = false := by
  intro e he
  unfold commEdges at he
  grind

theorem Motor.commutationRequests_made : ∀ e ∈ q.commutationRequests p ct r next edges, e.made = false := by
  intro e he
  rw [q.commutationRequests_eq] at he
  split at he
  · rcases List.mem_append.1 he with he | he
    · exact commEdges_made e he
    · have := (List.mem_filter.1 he).2
      simp only [Bool.and_eq_true, Bool.not_eq_true'] at this
      exact this.1
  · exact commEdges_made e he

/-- R88: the list after a commutation is the edges made and the commutation's requests. -/
theorem Motor.rewriteEdges_perm :
    (rewriteEdges p ct r.pulse (rolesOf r.step) (rolesOf next) (q.gates.highWanted (rolesOf r.step).pulsed) edges).Perm
      (edges.filter (·.made) ++ q.commutationRequests p ct r next edges) := by
  refine (sortEdges_perm _).trans ?_
  rw [q.commutationRequests_eq]
  split
  · rename_i same
    simp only [same, beq_self_eq_true, Bool.true_and]
    refine ((filter_or_perm (fun e : Edge => e.made) (fun e => e.phase == (rolesOf next).pulsed) edges).append_right _).trans ?_
    rw [List.append_assoc]
    exact List.Perm.append_left _ List.perm_append_comm
  · rename_i apart
    simp [beq_eq_false_iff_ne.2 apart]

end

end Sys2Proof.Machine
end

section
/-! The part while a command works on one motor: that motor, the store and the sampling unit may differ, and all else is as
it was. Reads of words that hold data. -/

namespace Sys2Proof.Machine

/-! ## Reads that give data (R157) -/

/-- R157: the store after reads that all gave data: words corrected at most, and what could be read still can. -/
structure Store.ReadOn (st t : Store) : Prop where
  corrected : st.Corrected t
  readable : ∀ pos, st.Readable pos → t.Readable pos

theorem Store.ReadOn.refl (st : Store) : st.ReadOn st := ⟨.refl st, fun _ h => h⟩

theorem Store.ReadOn.trans {a b c : Store} (h : a.ReadOn b) (k : b.ReadOn c) : a.ReadOn c :=
  ⟨h.corrected.trans k.corrected, fun pos hp => k.readable pos (h.readable pos hp)⟩

theorem Store.ReadOn.fields {a b : Store} (h : a.ReadOn b) (pos : Fin 82) : (b.word pos).fields = (a.word pos).fields :=
  h.corrected.fields pos

theorem Store.ReadOn.readableAll {a b : Store} (h : a.ReadOn b) {l : List (Fin 82)} (k : a.ReadableAll l) : b.ReadableAll l :=
  fun pos hp => h.readable pos (k pos hp)

theorem Part.readFor_readOn (p : Part) (m : Slot) {pos : Fin 82} (h : p.store.Readable pos) :
    ∃ st, p.store.ReadOn st ∧ p.readFor m pos = (some (p.store.word pos).fields, { p with store := st }) := by
  obtain ⟨st, hc, hr, hw⟩ := p.readFor_readable m pos h
  refine ⟨st, ⟨hc, fun x hx => ?_⟩, hr⟩
  have valid : (st.word x).valid = true := (hc.valid x).trans hx.1
  exact ⟨valid, hw [x] (fun y hy _ => by rw [List.mem_singleton.1 hy]; exact hx.2) x (by simp) valid⟩

theorem Part.readAllFor_readOn (m : Slot) {l : List (Fin 82)} (p : Part) (h : p.store.ReadableAll l) :
    ∃ st, p.store.ReadOn st ∧
      p.readAllFor m l = (some (l.map fun pos => (p.store.word pos).fields), { p with store := st }) := by
  induction l generalizing p with
  | nil => exact ⟨_, .refl _, rfl⟩
  | cons pos l ih =>
    obtain ⟨st, hst, hr⟩ := p.readFor_readOn m (h pos List.mem_cons_self)
    obtain ⟨st', hst', hr'⟩ := ih { p with store := st } (hst.readableAll fun x hx => h x (List.mem_cons_of_mem _ hx))
    refine ⟨st', hst.trans hst', ?_⟩
    simp only [Part.readAllFor, hr, hr', hst.fields, List.map_cons]

/-! ## One motor, the store and the sampling unit -/

/-- The part with motor m, the store and the sampling unit as given. -/
def Part.put (p : Part) (m : Slot) (q : Motor) (st : Store) (sa : Sampler) : Part :=
  { p with motors := p.motors.set m q, store := st, sampler := sa }

theorem Part.put_self (p : Part) (m : Slot) : p.put m (p.motor m) p.store p.sampler = p := by
  rw [Part.put, Part.motor, Triple.set_get_self]

section
variable (p : Part) (m : Slot) (q : Motor) (st : Store) (sa : Sampler)

@[simp] theorem Part.put_motor : (p.put m q st sa).motor m = q := Triple.get_set_self _ _ _
@[simp] theorem Part.put_store : (p.put m q st sa).store = st := rfl
@[simp] theorem Part.put_sampler : (p.put m q st sa).sampler = sa := rfl
@[simp] theorem Part.put_tb : (p.put m q st sa).tb = p.tb := rfl
@[simp] theorem Part.put_now : (p.put m q st sa).now = p.now := rfl
@[simp] theorem Part.put_nextSched : (p.put m q st sa).nextSched = p.nextSched := rfl

theorem Part.put_motor_ne {k : Slot} (h : k ≠ m) : (p.put m q st sa).motor k = p.motor k := Triple.get_set_ne _ _ h

@[simp] theorem Part.put_modMotor (f : Motor → Motor) : (p.put m q st sa).modMotor m f = p.put m (f q) st sa := by
  simp only [Part.put, Part.modMotor, Triple.get_set_self, Triple.set_set]

@[simp] theorem Part.put_modSampler (f : Sampler → Sampler) : (p.put m q st sa).modSampler f = p.put m q st (f sa) := rfl

@[simp] theorem Part.put_modRun (f : SeqRun → SeqRun) :
    (p.put m q st sa).modRun m f = p.put m { q with seqr := { q.seqr with run := q.seqr.run.map f } } st sa := by
  simp only [Part.modRun, Part.put_modMotor, Motor.modSeqr]

theorem Part.put_readFor {pos : Fin 82} (h : st.Readable pos) : ∃ st', st.ReadOn st' ∧
    (p.put m q st sa).readFor m pos = (some (st.word pos).fields, p.put m q st' sa) :=
  (p.put m q st sa).readFor_readOn m h

theorem Part.put_readAllFor {l : List (Fin 82)} (h : st.ReadableAll l) : ∃ st', st.ReadOn st' ∧
    (p.put m q st sa).readAllFor m l = (some (l.map fun pos => (st.word pos).fields), p.put m q st' sa) :=
  (p.put m q st sa).readAllFor_readOn m h

end

theorem Part.modMotor_eq_put (p : Part) (m : Slot) (f : Motor → Motor) :
    p.modMotor m f = p.put m (f (p.motor m)) p.store p.sampler := rfl

/-- What a command on motor m leaves unchanged. -/
theorem Part.put_beside (p : Part) (m : Slot) (q : Motor) {st : Store} (sa : Sampler) (h : p.store.Corrected st) :
    p.Beside (p.put m q st sa) m := ⟨fun _ hk => p.put_motor_ne m q st sa hk, rfl, rfl, rfl, rfl, h⟩

/-- A command on motor m at its end (R120, R127). -/
theorem Part.put_settle {p : Part} (hq : p.Quiet) (m : Slot) (q : Motor) {st : Store} (sa : Sampler) (h : p.store.Corrected st) :
    p.Beside (p.put m q st sa).settle m ∧ (p.put m q st sa).settle.motor m = q.modScheds Schedules.handOn ∧
      (p.put m q st sa).settle.sampler = sa := by
  have on := (p.put m q st sa).settle_handsOn
  exact ⟨(p.put_beside m q sa h).handsOn hq on, by rw [on.motor, Part.put_motor], on.sampler⟩

/-- R127: a command on motor m that leaves its schedules as they are makes no frame. -/
theorem Part.put_settle_quiet {p : Part} (hq : p.Quiet) (m : Slot) (q : Motor) (st : Store) (sa : Sampler)
    (h : q.scheds = (p.motor m).scheds) : (p.put m q st sa).settle = p.put m q st sa := by
  refine Part.settle_quiet _ ⟨hq.outbox, fun k => ?_⟩
  by_cases hk : k = m
  · rw [hk, Part.put_motor, h]
    exact hq.handed m
  · rw [p.put_motor_ne m q st sa hk]
    exact hq.handed k

end Sys2Proof.Machine
end

section
/-! A commutation that is made (R87 to R89, R117): what it makes of its motor, in the middle of a period and at the instant of
the next valley. -/

namespace Sys2Proof.Machine

/-! ## The edges requested (R57, R88) -/

/-- R88: the edge list that a commutation at carrier time ct leaves in place of `edges`. -/
def Motor.rewritten (q : Motor) (p ct : Nat) (r : SeqRun) (edges : List Edge) : List Edge :=
  rewriteEdges p ct r.pulse (rolesOf r.step) (rolesOf (nextStep r.dir r.step))
    (q.gates.highWanted (rolesOf r.step).pulsed) edges

/-- R57: an edge after those due at carrier time ct of a period of length len have been made. -/
def Edge.madeAt (ct len : Nat) (e : Edge) : Edge := if e.made = false ∧ e.dueAt len = ct then { e with made := true } else e

theorem Edge.madeAt_ordered {ct len : Nat} {a b : Edge} (h : a.Ordered b) : (a.madeAt ct len).Ordered (b.madeAt ct len) := by
  have place : ∀ e : Edge, (e.madeAt ct len).carrierTime = e.carrierTime ∧ (e.madeAt ct len).phase = e.phase ∧
      (e.madeAt ct len).switch = e.switch := fun e => by
    unfold Edge.madeAt
    split <;> exact ⟨rfl, rfl, rfl⟩
  obtain ⟨at_, xa, ga⟩ := place a
  obtain ⟨bt, xb, gb⟩ := place b
  unfold Edge.Ordered
  rw [at_, bt, xa, xb, ga, gb]
  exact h

/-- R57: the edges of a commutation that are due at once are requested in the order of R55. -/
theorem Motor.edgesRewritten {q q' : Motor} {p : Nat} {now : Tick} {r : SeqRun} {c : Carrier} {sc sc' : Schedule}
    (hg : q'.gates = ((q.rewritten p (ticksFrom now c.valley) r sc.edges).filter
      (·.isDue (ticksFrom now c.valley) c.len)).foldl (fun st e => st.request now q.dt e) q.gates)
    (he : sc'.edges = (q.rewritten p (ticksFrom now c.valley) r sc.edges).map (·.madeAt (ticksFrom now c.valley) c.len)) :
    q.EdgesRewritten q' p now r c sc sc' := by
  let ct := ticksFrom now c.valley
  have perm := q.rewriteEdges_perm p ct r (nextStep r.dir r.step) sc.edges
  have fresh := q.commutationRequests_made p ct r (nextStep r.dir r.step) sc.edges
  have sorted : (q.rewritten p ct r sc.edges).Pairwise Edge.Ordered := sortEdges_ordered _
  have due : ∀ e, e ∈ (q.rewritten p ct r sc.edges).filter (·.isDue ct c.len) ↔
      e ∈ q.commutationRequests p ct r (nextStep r.dir r.step) sc.edges ∧ min e.carrierTime (c.len - 1) = ct := fun e => by
    rw [Edge.mem_due, Motor.rewritten, perm.mem_iff, List.mem_append]
    constructor
    · rintro ⟨made | new, not, at_⟩
      · simp [not] at made
      · exact ⟨new, at_⟩
    · rintro ⟨new, at_⟩
      exact ⟨.inr new, fresh e new, at_⟩
  refine ⟨?_, ?_, fun x g unnamed => ?_, fun e hd off last => ?_, fun e hd on alone => ?_⟩
  · rw [he]
    exact sorted.map _ fun _ _ => Edge.madeAt_ordered
  · rw [he]
    refine (perm.map _).trans (.of_eq ?_)
    rw [List.map_append]
    congr 1
    · refine (List.map_congr_left fun e hm => ?_).trans (List.map_id _)
      have made : e.made = true := (List.mem_filter.1 hm).2
      simp [Edge.madeAt, made]
    · refine List.map_congr_left fun e hm => ?_
      by_cases at_ : min e.carrierTime (c.len - 1) = ticksFrom now c.valley
      · simp [Edge.madeAt, Edge.dueAt, fresh e hm, at_]
      · simp only [Edge.madeAt, Edge.dueAt, fresh e hm, at_, and_false, if_false, decide_false]
        rw [← fresh e hm]
  · rw [hg]
    exact GateStage.requests_other _ fun f hf => unnamed f ((due f).1 hf)
  · rw [hg]
    exact GateStage.requests_off_last _ (sorted.filter _) ((due e).2 hd) off fun f hf => last f ((due f).1 hf)
  · rw [hg]
    exact GateStage.requests_on _ ((due e).2 hd) on fun f hf => alone f ((due f).1 hf)

/-! ## The gates of the roles that change (R88) -/

section
variable {q q' : Motor} {p : Nat} {now : Tick} {r : SeqRun} {c : Carrier} {sc sc' : Schedule}
  (h : q.EdgesRewritten q' p now r c sc sc') (inPeriod : ticksFrom now c.valley < c.len)
include h inPeriod

/-- R88: where the low role moves, the old gate is off and the new one on, or waiting for its turn-on. -/
theorem Motor.EdgesRewritten.low (moves : (rolesOf r.step).low ≠ (rolesOf (nextStep r.dir r.step)).low) :
    ((q'.gates.gateAt (rolesOf r.step).low .low).on = false ∧ (q'.gates.gateAt (rolesOf r.step).low .low).pend = none) ∧
      ((q'.gates.gateAt (rolesOf (nextStep r.dir r.step)).low .low).on = true ∨
        (q'.gates.gateAt (rolesOf (nextStep r.dir r.step)).low .low).pend.isSome = true) := by
  obtain ⟨-, offGates, onGates⟩ := h.gates
  have pulsed : (rolesOf r.step).pulsed = (rolesOf (nextStep r.dir r.step)).pulsed := by
    rcases roles_change r.dir r.step with ⟨-, k⟩ | ⟨k, -⟩
    · exact k
    · exact absurd k moves
  have apart := roles_apart r.step
  have apart' := roles_apart (nextStep r.dir r.step)
  have requests : q.commutationRequests p (ticksFrom now c.valley) r (nextStep r.dir r.step) sc.edges =
      [⟨ticksFrom now c.valley, (rolesOf r.step).low, .low, false, false⟩,
        ⟨ticksFrom now c.valley, (rolesOf (nextStep r.dir r.step)).low, .low, true, false⟩] ++
      sc.edges.filter fun e => !e.made && e.phase == (rolesOf (nextStep r.dir r.step)).pulsed := by
    simp only [Motor.commutationRequests, moves, if_false, pulsed, if_true]
  have at_ : min (ticksFrom now c.valley) (c.len - 1) = ticksFrom now c.valley := by omega
  constructor
  · refine offGates ⟨ticksFrom now c.valley, (rolesOf r.step).low, .low, false, false⟩ ⟨by simp [requests], at_⟩ rfl
      fun f hf hx _ => ?_
    have hf := hf.1
    simp only [requests, List.mem_append, List.mem_cons, List.not_mem_nil, or_false, List.mem_filter, Bool.and_eq_true,
      beq_iff_eq] at hf
    rcases hf with (rfl | rfl) | ⟨-, -, hp⟩
    · exact .inl rfl
    · exact absurd hx.symm moves
    · exact absurd (hx.symm.trans (hp.trans pulsed.symm)) apart
  · have on := onGates ⟨ticksFrom now c.valley, (rolesOf (nextStep r.dir r.step)).low, .low, true, false⟩
      ⟨by simp [requests], at_⟩ rfl fun f hf hx => ?_
    · rw [on]
      split
      · exact .inl ‹_›
      · split
        · exact .inl rfl
        · exact .inr rfl
    · have hf := hf.1
      simp only [requests, List.mem_append, List.mem_cons, List.not_mem_nil, or_false, List.mem_filter, Bool.and_eq_true,
        beq_iff_eq] at hf
      rcases hf with (rfl | rfl) | ⟨-, -, hp⟩
      · exact absurd hx moves
      · rfl
      · exact absurd (hx.symm.trans hp) apart'

/-- R88: where the pulsed role moves, the HIGH gate of the phase that leaves it is off. -/
theorem Motor.EdgesRewritten.pulsed (moves : (rolesOf r.step).pulsed ≠ (rolesOf (nextStep r.dir r.step)).pulsed) :
    (q'.gates.gateAt (rolesOf r.step).pulsed .high).on = false ∧
      (q'.gates.gateAt (rolesOf r.step).pulsed .high).pend = none := by
  obtain ⟨kept, offGates, -⟩ := h.gates
  have low : (rolesOf r.step).low = (rolesOf (nextStep r.dir r.step)).low := by
    rcases roles_change r.dir r.step with ⟨-, k⟩ | ⟨k, -⟩
    · exact absurd k moves
    · exact k
  have at_ : min (ticksFrom now c.valley) (c.len - 1) = ticksFrom now c.valley := by omega
  let wanted := (q.gates.gateAt (rolesOf r.step).pulsed .high).on = true ∨
    (q.gates.gateAt (rolesOf r.step).pulsed .high).pend.isSome = true
  let off : Edge := ⟨ticksFrom now c.valley, (rolesOf r.step).pulsed, .high, false, false⟩
  -- every other request is for the phase that takes the role
  have requests : ∀ f ∈ q.commutationRequests p (ticksFrom now c.valley) r (nextStep r.dir r.step) sc.edges,
      (f = off ∧ wanted) ∨ f.phase = (rolesOf (nextStep r.dir r.step)).pulsed := by
    intro f hf
    simp only [Motor.commutationRequests, low, if_true, moves, if_false, List.nil_append, List.mem_append] at hf
    rcases hf with hf | hf
    · by_cases hw : wanted
      · rw [if_pos hw, List.mem_singleton] at hf
        exact .inl ⟨hf, hw⟩
      · rw [if_neg hw] at hf
        exact absurd hf List.not_mem_nil
    · right
      grind
  by_cases hw : wanted
  · refine offGates off ⟨?_, at_⟩ rfl fun f hf hx _ => ?_
    · simp only [Motor.commutationRequests, low, if_true, moves, if_false, List.nil_append, List.mem_append]
      left
      rw [if_pos hw]
      exact List.mem_singleton_self _
    · rcases requests f hf.1 with ⟨rfl, -⟩ | hp
      · exact .inl rfl
      · exact absurd (hx.symm.trans hp) moves
  · rw [kept _ _ fun f hf k => ?_]
    · simpa [wanted, not_or] using hw
    · rcases requests f hf.1 with ⟨-, k'⟩ | hp
      · exact hw k'
      · exact moves (k.1.symm.trans hp)

end

/-! ## The roles changed at a valley instant (R73, R89) -/

section
variable (st : GateStage) (now : Tick) (dt : Nat) {old new : Roles}

theorem GateStage.switchRoles_low (low : old.low ≠ new.low) (pulsed : old.pulsed = new.pulsed) :
    st.switchRoles now dt old new = (st.turnOff now old.low .low).turnOn now dt true new.low .low := by
  simp [GateStage.switchRoles, low, pulsed]

theorem GateStage.switchRoles_pulsed (low : old.low = new.low) (pulsed : old.pulsed ≠ new.pulsed) :
    st.switchRoles now dt old new = st.turnOff now old.pulsed .high := by
  simp [GateStage.switchRoles, low, pulsed]

theorem GateStage.turnOff_off (x : Phase) (g : Switch) :
    ((st.turnOff now x g).gateAt x g).on = false ∧ ((st.turnOff now x g).gateAt x g).pend = none := by
  rw [GateStage.turnOff_self]
  split
  · exact ⟨rfl, rfl⟩
  · rename_i off
    exact ⟨Bool.eq_false_iff.2 off, rfl⟩

theorem GateStage.turnOn_on (counted : Bool) (x : Phase) (g : Switch) :
    ((st.turnOn now dt counted x g).gateAt x g).on = true ∨ ((st.turnOn now dt counted x g).gateAt x g).pend.isSome = true := by
  rw [GateStage.turnOn_self]
  split
  · exact .inl ‹_›
  · split
    · exact .inl rfl
    · exact .inr rfl

end

/-! ## The motor after a commutation -/

/-- R117: the motor with its placed and waiting requests cancelled. -/
def Motor.cancelled (q : Motor) : Motor :=
  { q with
    samp := { q.samp with missedState := bumpBy q.samp.missedState q.scheds.unfrozen }
    scheds := q.scheds.mapReqs Request.cancel }

/-- R87: the motor after a commutation. -/
def Motor.commutated (q : Motor) (pp : Nat) (now : Tick) (c : Carrier) (r : SeqRun) (kind : CommKind) (late postponed : Bool)
    (next : Option Nat) : Motor :=
  if postponed || c.atNext now then
    (q.cancelled.modSeqr (·.countKind kind)).commutateAtValley now r kind late postponed next
  else (q.cancelled.modSeqr (·.countKind kind)).commutateIn pp now c r kind late next

/-- The sampling unit without a motor's entries on the waiting list (R117). -/
def Sampler.without (sa : Sampler) (m : Slot) : Sampler := { sa with waiting := sa.waiting.filter fun w => !w.ofMotor m }

theorem Part.put_makeCommutation (p : Part) (m : Slot) {q : Motor} (st : Store) (sa : Sampler) {c : Carrier} {r : SeqRun}
    (hr : q.seqr.run = some r) (hc : q.pace.carrier = some c) (kind : CommKind) (late postponed : Bool) (next : Option Nat) :
    (p.put m q st sa).makeCommutation m kind late postponed next =
      p.put m (q.commutated p.tb.p p.now c r kind late postponed next) st (sa.without m) := by
  have cancelled : (p.put m q st sa).cancelUnfrozen m = p.put m q.cancelled st (sa.without m) := by
    simp only [Part.cancelUnfrozen, Part.put_modMotor, Part.put_modSampler]
    rfl
  simp only [Part.makeCommutation, Part.put_motor, hr, hc, cancelled, Part.put_modMotor]
  rfl

section
variable {q : Motor} {pp : Nat} {now : Tick} {c : Carrier} {r : SeqRun} {kind : CommKind} {late postponed : Bool}
  {next : Option Nat}

/-- R87: a commutation leaves the motor's slot, pace, queue, planner, finder and protection as they are. -/
theorem Motor.commutated_keeps : (q.commutated pp now c r kind late postponed next).slot = q.slot ∧
    (q.commutated pp now c r kind late postponed next).pace = q.pace ∧
    (q.commutated pp now c r kind late postponed next).setq = q.setq ∧
    (q.commutated pp now c r kind late postponed next).planner = q.planner ∧
    (q.commutated pp now c r kind late postponed next).finder = q.finder ∧
    (q.commutated pp now c r kind late postponed next).prot = q.prot := by
  unfold Motor.commutated
  split
  · exact ⟨rfl, rfl, rfl, rfl, rfl, rfl⟩
  · unfold Motor.commutateIn
    simp only
    split <;> exact ⟨rfl, rfl, rfl, rfl, rfl, rfl⟩

/-- R117: the requests given up are counted. -/
theorem Motor.commutated_samp : (q.commutated pp now c r kind late postponed next).samp =
    { q.samp with missedState := min (q.samp.missedState + q.unfrozenCount) 65535 } := by
  rw [← Schedules.unfrozen_eq_count]
  unfold Motor.commutated
  split
  · rfl
  · unfold Motor.commutateIn
    simp only
    split <;> rfl

/-- R87, R89: the sequencer after a commutation; at a valley instant the entry waits for the period that the valley opens. -/
theorem Motor.commutated_seqr : (q.commutated pp now c r kind late postponed next).seqr =
    { q.seqr.countKind kind with run := some { r.advance now next with
      opening := if postponed || c.atNext now then r.opening ++ [⟨0, nextStep r.dir r.step, kind, late, postponed⟩]
        else r.opening } } := by
  unfold Motor.commutated
  split
  · rfl
  · unfold Motor.commutateIn
    simp only
    split <;> rfl

/-- R73, R89: at a valley instant the roles change and the edges stay. -/
theorem Motor.commutated_atValley (h : (postponed || c.atNext now) = true) :
    (q.commutated pp now c r kind late postponed next).gates =
        q.gates.switchRoles now q.dt (rolesOf r.step) (rolesOf (nextStep r.dir r.step)) ∧
      (q.commutated pp now c r kind late postponed next).scheds = q.scheds.mapReqs Request.cancel := by
  rw [Motor.commutated, if_pos h]
  exact ⟨rfl, rfl⟩

/-- R88, R89: the latest schedule after a commutation in the middle of its period. -/
def Schedule.commutated (sc : Schedule) (q : Motor) (pp : Nat) (now : Tick) (c : Carrier) (r : SeqRun) (kind : CommKind)
    (late : Bool) : Schedule :=
  { sc with
    reqs := sc.reqs.map Request.cancel
    edges := (q.rewritten pp (ticksFrom now c.valley) r sc.edges).map (·.madeAt (ticksFrom now c.valley) c.len)
    drive := sc.drive.addComm ⟨ticksFrom now c.valley, nextStep r.dir r.step, kind, late, false⟩ }

/-- R88, R89: in the middle of a period the edges are rewritten and the entry is recorded. -/
theorem Motor.commutated_middle {sc : Schedule} (h : (postponed || c.atNext now) = false) (hl : q.scheds.latest = some sc) :
    (q.commutated pp now c r kind late postponed next).gates =
        ((q.rewritten pp (ticksFrom now c.valley) r sc.edges).filter
          (·.isDue (ticksFrom now c.valley) c.len)).foldl (fun st e => st.request now q.dt e) q.gates ∧
      (q.commutated pp now c r kind late postponed next).scheds =
        { latest := some (sc.commutated q pp now c r kind late), older := (q.scheds.mapReqs Request.cancel).older } := by
  have latest : (q.cancelled.modSeqr (·.countKind kind)).scheds.latest = some { sc with reqs := sc.reqs.map Request.cancel } := by
    simp only [Motor.modSeqr_scheds, Motor.cancelled, Schedules.mapReqs, hl, Option.map_some]
  rw [Motor.commutated, if_neg (by simp [h])]
  simp only [Motor.commutateIn, latest, GateStage.runEdges_edges, GateStage.runEdges_stage]
  exact ⟨rfl, rfl⟩

end

end Sys2Proof.Machine
end

section
/-! What holds after a commutation that was made (R87 to R89, R117), and the three that come due (R76 to R78, R84, R85). -/

namespace Sys2Proof.Machine

/-! ## The schedules -/

theorem Schedules.handOn_latest {s : Schedules} {sc : Schedule} (h : s.latest = some sc) :
    ∃ handed, s.handOn.latest = some { sc with handed := handed } := by
  simp only [Schedules.handOn, h, Option.map_some]
  split
  · exact ⟨true, rfl⟩
  · exact ⟨sc.handed, rfl⟩

/-- R117: the schedules with every request resolved, the latest one with other edges and drive data. -/
theorem Schedules.resolved_redrawn {s : Schedules} {sc : Schedule} (h : s.latest = some sc) (f : Request → Request)
    (edges : List Edge) (drive : Drive) :
    s.Resolved { latest := some { sc with reqs := sc.reqs.map f, edges := edges, drive := drive }
                 older := (s.mapReqs f).older } f where
  latest sc' h' := by
    obtain rfl : sc = sc' := Option.some.inj (h.symm.trans h')
    exact ⟨_, rfl, id, rfl⟩
  absent h' := absurd (h.symm.trans h') (by simp)
  older := (s.mapReqs_resolved f).older
  kept := (s.mapReqs_resolved f).kept

theorem Drive.addComm_block {d : Drive} {step : Fin 6} {u : Pulse} {comms : List CommEntry} {crossing : Bool} (e : CommEntry)
    (h : d = .block step u comms crossing) : d.addComm e = .block step u (comms ++ [e]) crossing := by
  rw [h]
  rfl

/-! ## After a commutation -/

/-- A commutation is made in the middle of a period, or at the instant of the next valley. -/
theorem Motor.TakesCommutation.cases {q : Motor} {now : Tick} {c : Carrier} (h : q.TakesCommutation now)
    (hc : q.pace.carrier = some c) :
    c.atNext now = true ∨ (c.atNext now = false ∧ ticksFrom now c.valley < c.len ∧ ∃ sc, q.scheds.latest = some sc) := by
  obtain ⟨c', hc', h⟩ := h
  obtain rfl : c = c' := Option.some.inj (hc.symm.trans hc')
  cases hn : c.atNext now with
  | true => exact .inl rfl
  | false =>
    rcases h with h | ⟨inPeriod, sc, hl, -⟩
    · simp [hn] at h
    · exact .inr ⟨rfl, inPeriod, sc, hl⟩

/-- R89: such a commutation is not postponed. -/
theorem Motor.TakesCommutation.not_full {q : Motor} {now : Tick} (h : q.TakesCommutation now) : q.listFull now = false := by
  obtain ⟨c, hc, at_ | ⟨-, sc, hl, few⟩⟩ := h
  · simp [Motor.listFull, hc, at_]
  · simp [Motor.listFull, hl, few]

section
variable {p : Part} {m : Slot} {c : Carrier} {r : SeqRun} {d : SubData} {s : Sequencer} {st : Store} (kind : CommKind)
  (late : Bool) (next : Option Nat)

/-- The part after a commutation of motor m, whose sequencer stood as s with its run r. -/
def Part.withCommutation (p : Part) (m : Slot) (s : Sequencer) (st : Store) (c : Carrier) (r : SeqRun) (kind : CommKind)
    (late : Bool) (next : Option Nat) : Part :=
  p.put m (({ p.motor m with seqr := s } : Motor).commutated p.tb.p p.now c r kind late false next) st (p.sampler.without m)

/-- R87 to R89, R117: what holds of a part whose motor m was commutated with a sequencer of run r but for what the sub-phase
holds. -/
theorem Part.commutated_of_motor {t : Part} (hc : (p.motor m).pace.carrier = some c) (ht : (p.motor m).TakesCommutation p.now)
    (hm : t.motor m = (({ p.motor m with seqr := s } : Motor).commutated p.tb.p p.now c { r with data := d } kind late false
      next).modScheds Schedules.handOn)
    (hsa : t.sampler = p.sampler.without m) : p.Commutated t m r kind late := by
  have run : (t.motor m).seqr.run = some { ({ r with data := d } : SeqRun).advance p.now next with
      opening := if c.atNext p.now then r.opening ++ [⟨0, nextStep r.dir r.step, kind, late, false⟩] else r.opening } := by
    rw [hm, Motor.modScheds_seqr, Motor.commutated_seqr]
    rfl
  have missed : (t.motor m).samp = { (p.motor m).samp with
      missedState := min ((p.motor m).samp.missedState + (p.motor m).unfrozenCount) 65535 } := by
    rw [hm, Motor.modScheds_samp, Motor.commutated_samp]
    rfl
  have list : t.sampler.waiting = p.sampler.waiting.filter fun w => !w.ofMotor m := congrArg Sampler.waiting hsa
  have unique : ∀ {c' : Carrier}, (p.motor m).pace.carrier = some c' → c' = c := fun h => Option.some.inj (h.symm.trans hc)
  rcases ht.cases hc with hn | ⟨hn, inPeriod, sc, hl⟩
  · obtain ⟨hg, hs⟩ := Motor.commutated_atValley (q := { p.motor m with seqr := s }) (pp := p.tb.p)
      (r := { r with data := d }) (kind := kind) (late := late) (postponed := false) (next := next) hn
    have gates : (t.motor m).gates = (p.motor m).gates.switchRoles p.now (p.motor m).dt (rolesOf r.step)
        (rolesOf (nextStep r.dir r.step)) := by
      rw [hm]
      exact hg
    have scheds : (t.motor m).scheds = ((p.motor m).scheds.mapReqs Request.givenUp).handOn := by
      rw [hm]
      exact congrArg Schedules.handOn hs
    exact
      { step := by rw [run]; rfl
        search := by rw [run]; rfl
        post := by rw [run]; rfl
        pulse := by rw [run]; rfl
        low := fun moves => by
          have pulsed := (roles_change r.dir r.step).resolve_right fun k => moves k.1
          simp only [gates, GateStage.switchRoles_low _ _ _ moves pulsed.2]
          rw [GateStage.turnOn_other _ _ _ _ fun k => moves k.1]
          exact ⟨(GateStage.turnOff_off _ _ _ _).1, (GateStage.turnOff_off _ _ _ _).2, GateStage.turnOn_on _ _ _ _ _ _⟩
        pulsed := fun moves => by
          have low := (roles_change r.dir r.step).resolve_left fun k => moves k.2
          simp only [gates, GateStage.switchRoles_pulsed _ _ _ low.1 moves]
          exact GateStage.turnOff_off _ _ _ _
        requests := by
          rw [scheds]
          exact ((p.motor m).scheds.mapReqs_resolved Request.givenUp).handOn
        missed := missed
        list := list
        middle := fun c' sc hc' hn' _ => by
          rw [unique hc', hn] at hn'
          cases hn'
        atValley := fun c' hc' _ => by
          refine ⟨by rw [run, if_pos hn]; rfl, fun sc hl => ?_, ?_⟩
          · have latest : ((p.motor m).scheds.mapReqs Request.givenUp).latest =
                some { sc with reqs := sc.reqs.map Request.givenUp } := by rw [Schedules.mapReqs, hl]; rfl
            obtain ⟨handed, hh⟩ := Schedules.handOn_latest latest
            exact ⟨_, (congrArg Schedules.latest scheds).trans hh, rfl, rfl⟩
          · rw [gates]
            rcases roles_change r.dir r.step with ⟨low, pulsed⟩ | ⟨low, pulsed⟩
            · rw [GateStage.switchRoles_low _ _ _ low pulsed, GateStage.turnOn_other _ _ _ _ (by simp),
                GateStage.turnOff_other _ _ (by simp)]
            · rw [GateStage.switchRoles_pulsed _ _ _ low pulsed, GateStage.turnOff_other _ _ fun k => pulsed k.1.symm] }
  · obtain ⟨hg, hs⟩ := Motor.commutated_middle (q := { p.motor m with seqr := s }) (pp := p.tb.p)
      (r := { r with data := d }) (kind := kind) (late := late) (postponed := false) (next := next) hn hl
    let drawn := sc.commutated { p.motor m with seqr := s } p.tb.p p.now c { r with data := d } kind late
    let left : Schedules := { latest := some drawn, older := ((p.motor m).scheds.mapReqs Request.givenUp).older }
    have scheds : (t.motor m).scheds = left.handOn := by
      rw [hm]
      exact congrArg Schedules.handOn hs
    obtain ⟨handed, hh⟩ := Schedules.handOn_latest (s := left) rfl
    let sc' : Schedule := { drawn with handed := handed }
    have latest : (t.motor m).scheds.latest = some sc' := by rw [scheds, hh]
    have rewritten : (p.motor m).EdgesRewritten (t.motor m) p.tb.p p.now r c sc sc' :=
      Motor.edgesRewritten (by rw [hm]; exact hg) rfl
    exact
      { step := by rw [run]; rfl
        search := by rw [run]; rfl
        post := by rw [run]; rfl
        pulse := by rw [run]; rfl
        low := fun moves => by
          obtain ⟨off, on⟩ := rewritten.low inPeriod moves
          exact ⟨off.1, off.2, on⟩
        pulsed := fun moves => rewritten.pulsed inPeriod moves
        requests := by
          rw [scheds]
          exact (Schedules.resolved_redrawn hl Request.givenUp _ _).handOn
        missed := missed
        list := list
        middle := fun c' sc₂ hc' _ hl₂ => by
          obtain rfl := unique hc'
          obtain rfl : sc = sc₂ := Option.some.inj (hl.symm.trans hl₂)
          exact ⟨by rw [run, if_neg (by simp [hn])]; rfl, sc', latest, rewritten, fun _ _ _ _ => Drive.addComm_block _⟩
        atValley := fun c' hc' hn' => by
          rw [unique hc', hn] at hn'
          cases hn' }

/-- R87 to R89, R117: the part after a commutation, when the command ends. -/
theorem Part.withCommutation_commutated (hq : p.Quiet) (hst : p.store.Corrected st)
    (hc : (p.motor m).pace.carrier = some c) (ht : (p.motor m).TakesCommutation p.now) :
    p.Commutated (p.withCommutation m s st c { r with data := d } kind late next).settle m r kind late := by
  obtain ⟨-, hm, hsa⟩ := Part.put_settle hq m
    (({ p.motor m with seqr := s } : Motor).commutated p.tb.p p.now c { r with data := d } kind late false next)
    (p.sampler.without m) hst
  exact Part.commutated_of_motor kind late next hc ht hm hsa

end

end Sys2Proof.Machine
end

section
/-! The commutations that come due (R76 to R78, R84, R85): what their commands read and write before the commutation. -/

namespace Sys2Proof.Machine

/-! ## A commutation of a motor that is written about (R87, R89) -/

/-- The sequencer with its run r, whose sub-phase holds d. -/
def Sequencer.holding (s : Sequencer) (r : SeqRun) (d : SubData) : Sequencer := { s with run := some { r with data := d } }

theorem Sequencer.holding_self {s : Sequencer} {r : SeqRun} {d : SubData} (hr : s.run = some r) (hd : r.data = d) :
    s.holding r d = s := by
  subst hd
  rw [Sequencer.holding, ← hr]

section
variable (p : Part) (m : Slot) {s : Sequencer} (st : Store) {r : SeqRun}

theorem Part.put_of_store : ({ p with store := st } : Part) =
    p.put m { p.motor m with seqr := (p.motor m).seqr } st p.sampler := by
  rw [Part.put, Part.motor, Triple.set_get_self]

/-- R89: the sequencer after a commutation that comes due is postponed. -/
def Sequencer.postpone (s : Sequencer) (r : SeqRun) (kind : CommKind) (late : Bool) : Sequencer :=
  { s with
    postponed := bump s.postponed
    run := some { r with
      post := some ⟨kind, late⟩
      sched := none
      timeout := none
      search := r.search.map fun se => { se with searching := false } } }

section
variable {p} {q : Motor} {sa : Sampler} {c : Carrier} {st} (hr : q.seqr.run = some r) (hc : q.pace.carrier = some c)
include hr hc

/-- R87: a DETECTED or TIMEOUT commutation has no ramp interval to compute. -/
theorem Part.put_makeWithInterval {kind : CommKind} (hk : kind ≠ .ramp) (late postponed : Bool) :
    (p.put m q st sa).makeWithInterval m kind late postponed =
      p.put m (q.commutated p.tb.p p.now c r kind late postponed none) st (sa.without m) := by
  rw [← p.put_makeCommutation m st sa hr hc]
  unfold Part.makeWithInterval
  split
  · exact absurd rfl hk
  · rfl

/-- R76: a RAMP commutation, with the interval to the next. -/
theorem Part.put_makeWithInterval_ramp {t confirm hold : Nat} (hd : r.data = .ramp t confirm hold)
    (hread : st.ReadableAll [(RecordId.profile m).pos 11, (RecordId.profile m).pos 12]) (late postponed : Bool) :
    ∃ st', st.ReadOn st' ∧ (p.put m q st sa).makeWithInterval m .ramp late postponed =
      p.put m (q.commutated p.tb.p p.now c r .ramp late postponed
        (some (max (field (st.profileWord m 12) 0) (t - t * field (st.profileWord m 11) 1 / 256)))) st' (sa.without m) := by
  obtain ⟨st', on, words⟩ := p.put_readAllFor m q st sa hread
  refine ⟨st', on, ?_⟩
  rw [← p.put_makeCommutation m st' sa hr hc]
  simp only [Part.makeWithInterval, Part.put_motor, hr, Option.map_some, hd, Part.rampInterval, words]
  rfl

/-- R89: a DETECTED or TIMEOUT commutation is made where the list takes it. -/
theorem Part.put_commutate (room : q.listFull p.now = false) {kind : CommKind} (hk : kind ≠ .ramp) (late : Bool) :
    (p.put m q st sa).commutate m kind late =
      p.put m (q.commutated p.tb.p p.now c r kind late false none) st (sa.without m) := by
  rw [Part.commutate, Part.put_motor, Part.put_now, room, if_neg (by simp), Part.put_makeWithInterval m hr hc hk]

/-- R76, R89: a RAMP commutation is made where the list takes it. -/
theorem Part.put_commutate_ramp (room : q.listFull p.now = false) {t confirm hold : Nat} (hd : r.data = .ramp t confirm hold)
    (hread : st.ReadableAll [(RecordId.profile m).pos 11, (RecordId.profile m).pos 12]) (late : Bool) :
    ∃ st', st.ReadOn st' ∧ (p.put m q st sa).commutate m .ramp late =
      p.put m (q.commutated p.tb.p p.now c r .ramp late false
        (some (max (field (st.profileWord m 12) 0) (t - t * field (st.profileWord m 11) 1 / 256)))) st' (sa.without m) := by
  rw [Part.commutate, Part.put_motor, Part.put_now, room, if_neg (by simp)]
  exact Part.put_makeWithInterval_ramp m hr hc hd hread late false

end

/-- R89: with the list full the commutation is postponed. -/
theorem Part.put_commutate_full (hr : s.run = some r) (full : (p.motor m).listFull p.now = true) (kind : CommKind)
    (late : Bool) : (p.put m { p.motor m with seqr := s } st p.sampler).commutate m kind late =
      p.put m { p.motor m with seqr := s.postpone r kind late } st p.sampler := by
  have there : ({ p.motor m with seqr := s } : Motor).listFull p.now = true := full
  rw [Part.commutate, Part.put_motor, Part.put_now, if_pos there, Part.postpone, Part.put_modMotor]
  simp only [Motor.modSeqr, Sequencer.postpone, hr, Option.map_some]

end

/-! ## The commands (R76, R78, R84, R85) -/

section
variable {p : Part} {m : Slot} {r : SeqRun} (hr : (p.motor m).seqr.run = some r)
include hr

/-- R76, R78: a RAMP commutation that makes no STALL: the ramp-hold count rises at T_HANDOVER. -/
theorem Part.rampDue_below {t confirm hold : Nat} (hd : r.data = .ramp t confirm hold)
    (hread : p.store.ReadableAll [(RecordId.profile m).pos 12, (RecordId.profile m).pos 13])
    (hbelow : t ≠ field (p.store.profileWord m 12) 0 ∨ hold + 1 < field (p.store.profileWord m 13) 1) :
    let held := SubData.ramp t confirm (if t = field (p.store.profileWord m 12) 0 then hold + 1 else hold)
    ∃ st, p.store.ReadOn st ∧ p.rampDue m =
      (p.put m { p.motor m with seqr := (p.motor m).seqr.holding r held } st p.sampler).commutate m .ramp false := by
  intro held
  obtain ⟨st, hst, h12⟩ := p.readFor_readOn m (hread ((RecordId.profile m).pos 12) (by simp))
  by_cases at_ : t = field (p.store.profileWord m 12) 0
  · obtain ⟨st', hst', h13⟩ := ({ p with store := st } : Part).readFor_readOn m
      (hst.readable ((RecordId.profile m).pos 13) (hread _ (by simp)))
    refine ⟨st', hst.trans hst', ?_⟩
    have below : ¬field (st.word ((RecordId.profile m).pos 13)).fields 1 ≤ hold + 1 := by
      rw [hst.fields]
      exact Nat.not_le.2 (hbelow.resolve_left fun k => k at_)
    simp only [Part.rampDue, hr, hd, h12]
    refine (if_pos at_).trans ?_
    rw [show held = .ramp t confirm (hold + 1) from congrArg (SubData.ramp t confirm) (if_pos at_)]
    simp only [Part.rampAtHold, h13, below, if_false]
    rw [p.put_of_store m st', Part.put_modRun]
    simp only [hr, Option.map_some, Sequencer.holding]
  · refine ⟨st, hst, ?_⟩
    rw [show held = .ramp t confirm hold from congrArg (SubData.ramp t confirm) (if_neg at_),
      Sequencer.holding_self hr hd, ← p.put_of_store m st]
    simp only [Part.rampDue, hr, hd, h12]
    exact if_neg at_

/-- R84, R87: the scheduled DETECTED commutation. -/
theorem Part.detectedDue_of {instant : Tick} {kind : CommKind} {late : Bool} (hs : r.sched = some ⟨instant, kind, late⟩) :
    p.detectedDue m = (p.put m { p.motor m with seqr := (p.motor m).seqr } p.store p.sampler).commutate m kind late := by
  have sched : (p.motor m).seqr.run.bind SeqRun.sched = some ⟨instant, kind, late⟩ := by rw [hr]; exact hs
  rw [← p.put_of_store m p.store, Part.detectedDue]
  simp only [sched]

/-- R85: a timeout below LOST_LIMIT raises f, up to 15, the lost count and the timeout count. -/
theorem Part.timeoutDue_below {tRef : Tick} {tStep f lost limit : Nat} (hd : r.data = .closed tRef tStep f lost limit)
    (hbelow : lost + 1 < limit) : p.timeoutDue m =
      (p.put m { p.motor m with seqr := { (p.motor m).seqr with
        run := some { r with data := .closed tRef tStep (min (f + 1) 15) (lost + 1) limit }
        timeouts := bump (p.motor m).seqr.timeouts } } p.store p.sampler).commutate m .timeout false := by
  have below : ¬limit ≤ lost + 1 := Nat.not_le.2 hbelow
  have self : p = p.put m { p.motor m with seqr := (p.motor m).seqr } p.store p.sampler := p.put_of_store m p.store
  simp only [Part.timeoutDue, hr, hd, below, if_false]
  rw [congrArg (Part.modRun · m _) self]
  simp only [Part.put_modRun, Part.put_modMotor, hr, Option.map_some, Motor.modSeqr]

end

/-! ## A commutation command at its instant (R4) -/

section
variable {s : State} {m : Slot} {r : SeqRun} (hs : (s.part.motor m).slot.state = .running)
  (hr : (s.part.motor m).seqr.run = some r)
include hs hr

theorem Part.delay_rampCommutation {late : Bool} (h : r.sched = some ⟨s.part.now, .ramp, late⟩) :
    s.part.delay (.rampCommutation m) = some 0 := by
  simp [Part.delay, Part.commDelay, hs, hr, h, ticksFrom_self]

theorem Part.delay_detectedCommutation {late : Bool} (h : r.sched = some ⟨s.part.now, .detected, late⟩) :
    s.part.delay (.detectedCommutation m) = some 0 := by
  simp [Part.delay, Part.commDelay, hs, hr, h, ticksFrom_self]

theorem Part.delay_searchTimeout {se : Search} (h : r.timeout = some s.part.now) (hse : r.search = some se)
    (searching : se.searching = true) : s.part.delay (.searchTimeout m) = some 0 := by
  simp [Part.delay, Part.timeoutDelay, hs, hr, h, hse, searching, ticksFrom_self]

end

/-- A command of an instant, due, ends with its work done and the frames handed on. -/
theorem exec_of_timedWork {s : State} {cmd : Instr} {work : Part → Part} {x : Part} (he : s.part.en = true)
    (hwork : cmd.timedWork = some work) (hdelay : s.part.delay cmd = some 0)
    (hready : s.part.ready cmd = true) (hx : work s.part = x) :
    exec cmd s = .next { s with part := x.settle } := by
  refine exec_of_after ?_
  rw [s.part.after_of_timedWork hwork]
  exact (Part.takeTimed_now _ _ _ he hdelay hready).trans (congrArg Part.settle hx)

end Sys2Proof.Machine
end

section
/-! The commutations of RAMP and CLOSED, made and postponed (R76 to R78, R84, R85, R87 to R89). -/

namespace Sys2Proof.Machine

section
variable {p : Part} {m : Slot} {c : Carrier} {r : SeqRun} {d : SubData} {s : Sequencer} {st : Store} (hq : p.Quiet)
  (hst : p.store.Corrected st)
include hq hst

/-- What a commutation leaves unchanged, and the sequencer after it. -/
theorem Part.withCommutation_settle (kind : CommKind) (late : Bool) (next : Option Nat) :
    let t := (p.withCommutation m s st c r kind late next).settle
    p.Beside t m ∧ (t.motor m).slot = (p.motor m).slot ∧ (t.motor m).prot = (p.motor m).prot ∧
      (t.motor m).seqr = { s.countKind kind with run := some { r.advance p.now next with
        opening := if c.atNext p.now then r.opening ++ [⟨0, nextStep r.dir r.step, kind, late, false⟩] else r.opening } } := by
  obtain ⟨beside, hm, -⟩ := Part.put_settle hq m
    (({ p.motor m with seqr := s } : Motor).commutated p.tb.p p.now c r kind late false next) (p.sampler.without m) hst
  obtain ⟨slot, -, -, -, -, prot⟩ := Motor.commutated_keeps (q := { p.motor m with seqr := s }) (pp := p.tb.p) (now := p.now)
    (c := c) (r := r) (kind := kind) (late := late) (postponed := false) (next := next)
  refine ⟨beside, ?_, ?_, ?_⟩
  · exact (congrArg Motor.slot hm).trans slot
  · exact (congrArg Motor.prot hm).trans prot
  · exact (congrArg Motor.seqr hm).trans Motor.commutated_seqr

end

/-- Settles O28: RAMP_COMMUTATION reads what it needs, raises the ramp-hold count at T_HANDOVER, and makes the commutation with
the interval it has computed. -/
theorem rampCommutationMovesTheStep : Obligations.RampCommutationMovesTheStep := by
  intro s m r t0 confirm hold late he hq hs hr hd hsched ht hread handover next hbelow
  obtain ⟨c, hc, -⟩ := id ht
  obtain ⟨st, hst, due⟩ := Part.rampDue_below hr hd (fun x hx => hread x (List.mem_cons_of_mem _ hx)) hbelow
  obtain ⟨st', hst', made⟩ := Part.put_commutate_ramp m (p := s.part) (sa := s.part.sampler)
    (q := { s.part.motor m with seqr := (s.part.motor m).seqr.holding r _ }) rfl hc ht.not_full rfl
    (hst.readableAll fun x hx => hread x (by grind)) false
  have corrected : s.part.store.Corrected st' := hst.corrected.trans hst'.corrected
  have interval : max (field (st.profileWord m 12) 0) (t0 - t0 * field (st.profileWord m 11) 1 / 256) = next := by
    rw [hst.corrected.profileWord, hst.corrected.profileWord]
  rw [interval] at made
  obtain ⟨beside, slot, -, seqr⟩ := Part.withCommutation_settle (s := (s.part.motor m).seqr.holding r _) (c := c)
    (r := { r with data := _ }) (m := m) hq corrected .ramp false (some next)
  refine ⟨_, exec_of_timedWork he rfl (Part.delay_rampCommutation hs hr hsched) rfl (due.trans made), rfl, beside, slot,
    Part.withCommutation_commutated .ramp false (some next) hq corrected hc ht, ?_, ?_, ?_⟩
  · exact congrArg (fun x => x.run.map SeqRun.data) seqr
  · exact congrArg (fun x => x.run.map SeqRun.sched) seqr
  · exact congrArg Sequencer.ramps seqr

/-- Settles O29: both commands make the commutation, whose timeout is the step interval that CLOSED holds away. -/
theorem closedCommutationsMoveTheStep : Obligations.ClosedCommutationsMoveTheStep := by
  refine ⟨fun s m r tRef tStep f lost limit late he hq hs hr hd hsched ht => ?_,
    fun s m r se tRef tStep f lost limit he hq hs hr hd htime hse searching hbelow ht => ?_⟩
  · obtain ⟨c, hc, -⟩ := id ht
    have due := (Part.detectedDue_of hr hsched).trans (Part.put_commutate m hr hc ht.not_full (by decide) late)
    obtain ⟨beside, slot, -, seqr⟩ := Part.withCommutation_settle (s := (s.part.motor m).seqr) (c := c) (r := r) (m := m) hq
      (.refl _) .detected late none
    refine ⟨_, exec_of_timedWork he rfl (Part.delay_detectedCommutation hs hr hsched) rfl due, rfl, beside, slot,
      Part.withCommutation_commutated (d := r.data) .detected late none hq (.refl _) hc ht, ?_, ?_, ?_⟩
    · refine (congrArg (fun x => x.run.map SeqRun.data) seqr).trans ?_
      simp [SeqRun.advance, hd, SubData.afterCommutation]
    · exact congrArg (fun x => x.run.map SeqRun.sched) seqr
    · refine (congrArg (fun x => x.run.map SeqRun.timeout) seqr).trans ?_
      simp [SeqRun.advance, hd]
  · obtain ⟨c, hc, -⟩ := id ht
    let forced : SeqRun := { r with data := .closed tRef tStep (min (f + 1) 15) (lost + 1) limit }
    let u : Sequencer := { (s.part.motor m).seqr with run := some forced, timeouts := bump (s.part.motor m).seqr.timeouts }
    have due : s.part.timeoutDue m = s.part.withCommutation m u s.part.store c forced .timeout false none :=
      (Part.timeoutDue_below hr hd hbelow).trans
        (Part.put_commutate (q := { s.part.motor m with seqr := u }) m rfl hc ht.not_full (by decide) false)
    obtain ⟨beside, slot, -, seqr⟩ := Part.withCommutation_settle (s := u) (c := c) (r := forced) (m := m) hq (.refl _)
      .timeout false none
    refine ⟨_, exec_of_timedWork he rfl (Part.delay_searchTimeout hs hr htime hse searching) rfl due, rfl, beside, slot,
      Part.withCommutation_commutated .timeout false none hq (.refl _) hc ht, ?_, ?_, ?_⟩
    · exact congrArg (fun x => x.run.map SeqRun.data) seqr
    · exact congrArg (fun x => x.run.map SeqRun.timeout) seqr
    · exact congrArg Sequencer.timeouts seqr

end Sys2Proof.Machine
end

section
/-! A commutation postponed (R89). -/

namespace Sys2Proof.Machine

section
variable {s : State} {m : Slot} {c : Carrier} {sc : Schedule} {r : SeqRun} {se : Search}

theorem Motor.listFull_of {q : Motor} {now : Tick} (hc : q.pace.carrier = some c) (hn : c.atNext now = false)
    (hl : q.scheds.latest = some sc) (full : 2 ≤ sc.comms.length) : q.listFull now = true := by
  simp [Motor.listFull, hc, hn, hl, full]

/-- R89: a command whose commutation is postponed leaves all but the sequencer of its motor, and corrections in the store. -/
theorem exec_of_postponed {cmd : Instr} {work : Part → Part} {u : Sequencer} {st : Store} {kind : CommKind} {late : Bool}
    (he : s.part.en = true) (hq : s.part.Quiet) (hwork : cmd.timedWork = some work) (hdelay : s.part.delay cmd = some 0)
    (hready : s.part.ready cmd = true) {d : SubData} (hu : u.run = some { r with data := d }) (hse : r.search = some se)
    (full : (s.part.motor m).listFull s.part.now = true)
    (due : work s.part = (s.part.put m { s.part.motor m with seqr := u } st s.part.sampler).commutate m kind late) :
    exec cmd s = .next { s with part := { s.part with
      store := st
      motors := s.part.motors.set m { s.part.motor m with seqr := { u with
        postponed := bump u.postponed
        run := some { r with
          data := d, post := some ⟨kind, late⟩, sched := none, timeout := none
          search := some { se with searching := false } } } } } } := by
  have postponed := (due.trans (s.part.put_commutate_full m st hu full kind late))
  rw [exec_of_timedWork he hwork hdelay hready postponed, Part.put_settle_quiet hq m _ st s.part.sampler (by rfl),
    Sequencer.postpone]
  simp only [hse]
  rfl

end

end Sys2Proof.Machine
end

section
/-! A BLOCK_ON request completes and its sample is judged (R80, R81, R105, R118). -/

namespace Sys2Proof.Machine

/-! ## A request by reference, changed -/

section
variable {s : Schedules} {id : Nat} {entry : Fin 6} {sc : Schedule} {r : Request}

theorem Schedules.findReq_found (h : s.findReq id entry = some (sc, r)) : sc.id = id ∧ r.entry = entry := by
  obtain ⟨sc', found, hr⟩ := Option.bind_eq_some_iff.1 h
  obtain ⟨r', foundReq, pair⟩ := Option.map_eq_some_iff.1 hr
  obtain ⟨rfl, rfl⟩ := Prod.mk.inj pair
  exact ⟨by simpa using List.find?_some found, by simpa using List.find?_some foundReq⟩

/-- f on the request of an entry of a schedule. -/
def Schedule.modReq (sc : Schedule) (entry : Fin 6) (f : Request → Request) : Schedule :=
  { sc with reqs := sc.reqs.map fun r => if r.entry = entry then f r else r }

/-- A request changed by reference is found as changed. -/
theorem Schedules.findReq_modReq {f : Request → Request} (hf : ∀ x, x.entry = entry → (f x).entry = entry)
    (h : s.findReq id entry = some (sc, r)) :
    (s.modReq id entry f).findReq id entry = some (sc.modReq entry f, f r) := by
  obtain ⟨hid, hentry⟩ := Schedules.findReq_found h
  obtain ⟨sc', found, hr⟩ := Option.bind_eq_some_iff.1 h
  obtain ⟨r', foundReq, pair⟩ := Option.map_eq_some_iff.1 hr
  obtain ⟨rfl, rfl⟩ := Prod.mk.inj pair
  let g := fun (x : Schedule) => if x.id = id then x.modReq entry f else x
  have sched : ((s.modReq id entry f).latest.toList ++ (s.modReq id entry f).older).find? (·.id == id) =
      some (sc'.modReq entry f) := by
    have keeps : (fun x : Schedule => x.id == id) ∘ g = fun x => x.id == id := by
      funext x
      simp only [Function.comp, g]
      split <;> rfl
    have mapped : (s.modReq id entry f).latest.toList ++ (s.modReq id entry f).older = (s.latest.toList ++ s.older).map g := by
      cases hl : s.latest <;> simp [Schedules.modReq, hl, g, Schedule.modReq]
    rw [mapped, List.find?_map, keeps, found]
    simp [g, hid]
  have req : (sc'.modReq entry f).reqs.find? (·.entry == entry) = some (f r') := by
    have keeps : (fun x : Request => x.entry == entry) ∘ (fun x => if x.entry = entry then f x else x) =
        fun x => x.entry == entry := by
      funext x
      simp only [Function.comp]
      split
      · next he => simp [hf x he, he]
      · rfl
    rw [Schedule.modReq, List.find?_map, keeps, foundReq]
    simp [hentry]
  rw [Schedules.findReq, sched, Option.bind_some, req, Option.map_some]

/-- A request changed by reference leaves all but the requests of a schedule. -/
theorem Schedules.modReq_latest {β : Type} {g : Schedule → β} (hg : ∀ sc reqs, g { sc with reqs := reqs } = g sc)
    (s : Schedules) (id : Nat) (entry : Fin 6) (f : Request → Request) : (s.modReq id entry f).latest.map g = s.latest.map g := by
  simp only [Schedules.modReq, Option.map_map]
  congr 1
  funext x
  simp only [Function.comp]
  split
  · exact hg x _
  · rfl

end

/-! ## The completion of a BLOCK_ON request (R112, R118) -/

/-- R112: a request with one code more. -/
def Request.withCode (r : Request) (code : Code) : Request := { r with codes := r.codes ++ [code] }

/-- R118: a request as it stands after its last code. -/
def Request.completed (r : Request) (code : Code) : Request :=
  { r with codes := r.codes ++ [code], readings := r.form (r.codes ++ [code]), status := .done }

/-- R118: the motor after the last code of a request. -/
def Motor.completed (q : Motor) (id : Nat) (entry : Fin 6) (r : Request) (code : Code) : Motor :=
  q.modScheds fun s => (s.modReq id entry (·.withCode code)).modReq id entry fun _ => r.completed code

theorem Motor.completed_latest {β : Type} {g : Schedule → β} (hg : ∀ sc reqs, g { sc with reqs := reqs } = g sc) (q : Motor)
    (id : Nat) (entry : Fin 6) (r : Request) (code : Code) :
    (q.completed id entry r code).scheds.latest.map g = q.scheds.latest.map g :=
  (Schedules.modReq_latest hg _ _ _ _).trans (Schedules.modReq_latest hg _ _ _ _)

section
variable (p : Part) (m : Slot) (q : Motor) (st : Store) (sa : Sampler) {id : Nat} {entry : Fin 6} {sc : Schedule}
  {r : Request} {cur float : Code} {at_ : Tick}

/-- R107: the current of a BLOCK_ON group. -/
theorem Request.completed_currents (hk : r.kind = .blockOn) (hcodes : r.codes = [cur, float]) (hphases : r.phases.length = 3)
    (code : Code) : ∃ ph, (r.completed code).currents = [((cur.toNat : Int) - r.offsets.getD 0 0, ph)] := by
  obtain ⟨x, y, z, hp⟩ := List.length_eq_three.1 hphases
  refine ⟨x, ?_⟩
  have readings : (r.completed code).readings = [r.current cur 0, plainReading float, plainReading code] := by
    rw [← Request.form_blockOn cur float code hk, Request.completed, hcodes]
    rfl
  rw [Request.currents, readings]
  simp only [Request.completed, hk, hp]
  rfl

/-- R118, R141: a BLOCK_ON request of a RUNNING motor completes with its current within the limit: its sample goes to the
sequencer. -/
theorem Part.put_giveCode_block (hf : q.scheds.findReq id entry = some (sc, r)) (hk : r.kind = .blockOn)
    (hch : r.channels.length = 3) (hcodes : r.codes = [cur, float]) (hat : r.frozenAt = some at_) (hstayed : r.stayed = true)
    (hphases : r.phases.length = 3) (hread : st.Readable ((RecordId.profile m).pos 8))
    (within : ((cur.toNat : Int) - r.offsets.getD 0 0).natAbs ≤ field (st.profileWord m 8) 0) (code : Code) :
    ∃ st', st.ReadOn st' ∧ (p.put m q st sa).giveCode m id entry code =
      (p.put m (q.completed id entry r code) st' sa).judgeSample m id r.inStep at_ float code := by
  obtain ⟨rfl, rfl⟩ := Schedules.findReq_found hf
  have found : (q.modScheds (·.modReq sc.id r.entry (·.withCode code))).scheds.findReq sc.id r.entry =
      some (sc.modReq r.entry (·.withCode code), r.withCode code) := Schedules.findReq_modReq (fun _ h => h) hf
  have done : (q.completed sc.id r.entry r code).scheds.findReq sc.id r.entry = some (_, r.completed code) :=
    Schedules.findReq_modReq (fun _ _ => rfl) found
  obtain ⟨st', on, read⟩ := p.put_readFor m (q.completed sc.id r.entry r code) st sa hread
  refine ⟨st', on, ?_⟩
  obtain ⟨ph, currents⟩ := Request.completed_currents hk hcodes hphases code
  have length : (r.withCode code).codes.length = (r.withCode code).channels.length := by simp [Request.withCode, hcodes, hch]
  have given : (p.put m q st sa).giveCode m sc.id r.entry code =
      ((p.put m (q.completed sc.id r.entry r code) st sa).checkCurrents m (sc.modReq r.entry (·.withCode code)).period (r.completed code)).offerSample m sc.id (r.completed code) := by
    rw [Part.giveCode, Part.put_modMotor]
    simp only [Part.put_motor]
    split
    · next found' =>
      obtain ⟨rfl, rfl⟩ := Prod.mk.inj (Option.some.inj (found.symm.trans found'))
      rw [if_pos length, Part.completeRequest, Part.put_modMotor]
      rfl
    · next absent => exact absurd (found.symm.trans absent) (by simp)
  have checked : (p.put m (q.completed sc.id r.entry r code) st sa).checkCurrents m (sc.modReq r.entry (·.withCode code)).period
      (r.completed code) = p.put m (q.completed sc.id r.entry r code) st' sa := by
    have limit : ¬field (st.word ((RecordId.profile m).pos 8)).fields 0 < ((cur.toNat : Int) - r.offsets.getD 0 0).natAbs :=
      Nat.not_lt.2 within
    rw [Part.checkCurrents, if_pos (by rw [currents, show (r.completed code).stayed = true from hstayed]; rfl)]
    simp only [read, overLimit, currents, List.find?_cons, List.find?_nil, limit, decide_false]
  have judged : ((q.completed sc.id r.entry r code).scheds.findReq sc.id (r.completed code).entry).any
      (fun x => x.2.inStep && x.2.stayed) = r.inStep := by
    refine (congrArg (Option.any _) done).trans ?_
    simp [Request.completed, hstayed]
  rw [given, checked, Part.offerSample, show (r.completed code).kind = .blockOn from hk,
    show (r.completed code).frozenAt = some at_ from hat]
  simp only [Part.put_motor]
  rw [judged, Request.completed, hcodes]
  rfl

end

/-! ## The judgement of a sample (R80, R81) -/

section
variable {p : Part} {m : Slot} {q : Motor} {st : Store} {sa : Sampler} {ru : SeqRun} {at_ : Tick} {inStep : Bool}
  (hs : q.slot.state = .running) (hr : q.seqr.run = some ru) (hread : st.Readable ((RecordId.profile m).pos 8))
include hs hr hread

/-- R80: a sample that is not valid for search changes no sequencer state. -/
theorem Part.put_judgeSample_invalid (sched : Nat) (float bus : Code)
    (invalid : ¬(inStep = true ∧ ∃ se, ru.search = some se ∧ se.searching = true ∧
      atOrAfter at_ (later se.ref (field (st.profileWord m 8) 1)) = true)) :
    ∃ st', st.ReadOn st' ∧ (p.put m q st sa).judgeSample m sched inStep at_ float bus = p.put m q st' sa := by
  have run : (p.put m q st sa).running m = true := by simp [Part.running, hs]
  cases hse : ru.search with
  | none => exact ⟨st, .refl _, by simp only [Part.judgeSample, run, Part.put_motor, hr, hse]⟩
  | some se =>
    by_cases looked : (se.searching && inStep) = true
    · obtain ⟨st', on, read⟩ := p.put_readFor m q st sa hread
      have blanked : ¬atOrAfter at_ (later se.ref (field (st.word ((RecordId.profile m).pos 8)).fields 1)) = true := fun h => by
        obtain ⟨searching, still⟩ := Bool.and_eq_true_iff.1 looked
        exact invalid ⟨still, se, hse, searching, h⟩
      exact ⟨st', on, by simp only [Part.judgeSample, run, Part.put_motor, hr, hse, looked, if_true, read, blanked,
        Bool.false_eq_true, if_false]⟩
    · exact ⟨st, .refl _, by simp only [Part.judgeSample, run, Part.put_motor, hr, hse, looked, Bool.false_eq_true, if_false]⟩

/-- R80: a valid sample is used with its crossing value. -/
theorem Part.put_judgeSample_valid (sched : Nat) (float bus : Code) {se : Search} (hse : ru.search = some se)
    (hin : inStep = true) (searching : se.searching = true)
    (late : atOrAfter at_ (later se.ref (field (st.profileWord m 8) 1)) = true) :
    ∃ st', st.ReadOn st' ∧ (p.put m q st sa).judgeSample m sched inStep at_ float bus =
      (p.put m q st' sa).useSample m sched ru se (crossingValue float bus) at_ := by
  have run : (p.put m q st sa).running m = true := by simp [Part.running, hs]
  obtain ⟨st', on, read⟩ := p.put_readFor m q st sa hread
  have looked : (se.searching && inStep) = true := by simp [searching, hin]
  have after : atOrAfter at_ (later se.ref (field (st.word ((RecordId.profile m).pos 8)).fields 1)) = true := late
  exact ⟨st', on, by simp only [Part.judgeSample, run, Part.put_motor, hr, hse, looked, if_true, read, after]⟩

end

end Sys2Proof.Machine
end

section
/-! A crossing acted on (R77, R79, R81 to R84). -/

namespace Sys2Proof.Machine

/-! ## The crossing and the flag of its schedule (R81, R82) -/

/-- R82: the crossing instant, between the previous sample and this one, or this one's where it is the first. -/
def crossingInstant (prev : Option PrevSample) (x : Int) (now : Tick) : Tick :=
  match prev with
  | none => now
  | some s => interpolate s x now

theorem judgeCrossing_kept {rising : Bool} {x : Int} (h : ¬if rising then 0 ≤ x else x ≤ 0) (prev : Option PrevSample)
    (now : Tick) : judgeCrossing rising prev x now = .no := by
  cases rising <;> simp_all [judgeCrossing]

theorem judgeCrossing_crossed {rising : Bool} {x : Int} (h : if rising then 0 ≤ x else x ≤ 0) (prev : Option PrevSample)
    (now : Tick) : judgeCrossing rising prev x now =
      if prev.isNone then .early (crossingInstant prev x now) else .between (crossingInstant prev x now) := by
  cases rising <;> cases prev <;> simp_all [judgeCrossing, crossingInstant]

/-- R81: the motor after a crossing found with the previous sample `prev`, its run left as ru. -/
def Motor.crossed (q : Motor) (sched : Nat) (prev : Option PrevSample) (ru : SeqRun) : Motor :=
  { q with
    scheds := q.scheds.setCrossing sched
    seqr := { q.seqr with
      detected := bump q.seqr.detected
      early := if prev = none then bump q.seqr.early else q.seqr.early
      run := some ru } }

/-- R81: the crossing-detected flag is set in the schedule, where that is still the most recent one; a commutation may have
been recorded with it. -/
def Schedules.MarkedTo (s t : Schedules) (sc : Schedule) : Prop :=
  s.latest = some sc → ∀ step u comms crossing, sc.drive = .block step u comms crossing →
    ∃ more, t.latest.map (·.drive) = some (.block step u (comms ++ more) true)

theorem Schedules.handOn_drive (s : Schedules) : s.handOn.latest.map (·.drive) = s.latest.map (·.drive) := by
  cases hl : s.latest with
  | none => simp [Schedules.handOn, hl]
  | some sc =>
    obtain ⟨handed, h⟩ := Schedules.handOn_latest hl
    rw [h]
    rfl

theorem Schedules.mapReqs_drive (s : Schedules) (f : Request → Request) :
    (s.mapReqs f).latest.map (·.drive) = s.latest.map (·.drive) := by
  simp only [Schedules.mapReqs, Option.map_map]
  rfl

theorem Schedules.MarkedTo.handOn {s t : Schedules} {sc : Schedule} (h : s.MarkedTo t sc) : s.MarkedTo t.handOn sc :=
  fun hl step u comms crossing hd => by
    rw [Schedules.handOn_drive]
    exact h hl step u comms crossing hd

/-- R81: the flag is set in the most recent schedule, whose requests may have changed since. -/
theorem Schedules.setCrossing_marked {s t : Schedules} {sc : Schedule}
    (h : t.latest.map (fun x => (x.id, x.drive)) = s.latest.map fun x => (x.id, x.drive)) :
    s.MarkedTo (t.setCrossing sc.id) sc := fun hl step u comms crossing hd => by
  rw [hl] at h
  obtain ⟨x, hx, pair⟩ := Option.map_eq_some_iff.1 h
  obtain ⟨hid, hdrive⟩ := Prod.mk.inj pair
  refine ⟨[], ?_⟩
  simp [Schedules.setCrossing, hx, hid, hdrive, hd, Drive.setCrossing]

/-- R88, R89: a commutation keeps the flag, and may record its entry. -/
theorem Motor.commutated_marked {q : Motor} {pp : Nat} {now : Tick} {c : Carrier} {r : SeqRun} {kind : CommKind}
    {late postponed : Bool} {next : Option Nat} {s : Schedules} {sc : Schedule} (h : s.MarkedTo q.scheds sc) :
    s.MarkedTo (q.commutated pp now c r kind late postponed next).scheds sc := fun hl step u comms crossing hd => by
  obtain ⟨more, marked⟩ := h hl step u comms crossing hd
  obtain ⟨x, hx, drive⟩ := Option.map_eq_some_iff.1 marked
  cases hv : postponed || c.atNext now with
  | true =>
    rw [(Motor.commutated_atValley hv).2, Schedules.mapReqs_drive]
    exact ⟨more, marked⟩
  | false =>
    rw [(Motor.commutated_middle hv hx).2]
    refine ⟨more ++ [⟨ticksFrom now c.valley, nextStep r.dir r.step, kind, late, false⟩], ?_⟩
    simp only [Option.map_some, Schedule.commutated, Drive.addComm_block _ drive, List.append_assoc]

/-! ## What is done (R77, R79, R83, R84) -/

section
variable {p : Part} {m : Slot} {q : Motor} {st : Store} {sa : Sampler} {ru : SeqRun} {prev : Option PrevSample} {sched : Nat}

theorem Part.put_crossed_modRun (f : SeqRun → SeqRun) :
    (p.put m (q.crossed sched prev ru) st sa).modRun m f = p.put m (q.crossed sched prev (f ru)) st sa :=
  p.put_modRun m _ st sa f

/-- R81: a sample that shows no crossing becomes the previous sample. -/
theorem Part.put_useSample_kept {se : Search} {x : Int} {at_ : Tick} (hr : q.seqr.run = some ru)
    (h : ¬if risingExpected ru.dir ru.step then 0 ≤ x else x ≤ 0) :
    (p.put m q st sa).useSample m sched ru se x at_ = p.put m { q with seqr := { q.seqr with
      run := some { ru with search := some { se with prev := some ⟨x, at_⟩ } } } } st sa := by
  simp only [Part.useSample, judgeCrossing_kept h, Part.put_modRun, hr, Option.map_some]

/-- R81: a crossing stops the search, is counted and flagged, and is acted on. -/
theorem Part.put_useSample_crossed {se : Search} {x : Int} {at_ : Tick} (hr : q.seqr.run = some ru) (hse : ru.search = some se)
    (h : if risingExpected ru.dir ru.step then 0 ≤ x else x ≤ 0) :
    (p.put m q st sa).useSample m sched ru se x at_ =
      (p.put m (q.crossed sched se.prev { ru with search := some { se with searching := false } }) st sa).actOnCrossing m
        ru.data se.prev.isNone (crossingInstant se.prev x at_) := by
  have found : (p.put m q st sa).crossingFound m sched se.prev.isNone =
      p.put m (q.crossed sched se.prev { ru with search := some { se with searching := false } }) st sa := by
    rw [Part.crossingFound, Part.put_modMotor, hr, Option.map_some, hse, Option.map_some, Motor.crossed]
    cases se.prev <;> rfl
  rw [← found, Part.useSample, judgeCrossing_crossed h]
  cases se.prev <;> rfl

/-- R77: an EARLY crossing in RAMP leaves the confirm count. -/
theorem Part.actOnCrossing_rampEarly (p : Part) (m : Slot) {t confirm hold : Nat} {data : SubData} {early : Bool}
    (hd : data = .ramp t confirm hold) (first : early = true) (tzc : Tick) : p.actOnCrossing m data early tzc = p := by
  subst hd first
  rfl

section
variable {t confirm hold : Nat} {data : SubData} {early : Bool}
  (hread : st.ReadableAll ([8, 9, 12, 13, 14].map (RecordId.profile m).pos))
include hread

/-- R77: any other in RAMP confirms the step. -/
theorem Part.put_actOnCrossing_confirms (hd : data = .ramp t confirm hold) (again : early = false) (tzc : Tick)
    (below : confirm + 1 < field (st.profileWord m 12) 1) :
    ∃ st', st.ReadOn st' ∧ (p.put m (q.crossed sched prev ru) st sa).actOnCrossing m data early tzc =
      p.put m (q.crossed sched prev { ru with data := .ramp t (min (confirm + 1) 15) hold, stepConfirmed := true }) st' sa := by
  subst hd again
  obtain ⟨st', on, read⟩ := p.put_readFor m
    (q.crossed sched prev { ru with data := .ramp t (min (confirm + 1) 15) hold, stepConfirmed := true }) st sa
    (hread ((RecordId.profile m).pos 12) (by simp))
  have not : ¬field (st.word ((RecordId.profile m).pos 12)).fields 1 ≤ confirm + 1 := Nat.not_le.2 below
  refine ⟨st', on, ?_⟩
  simp only [Part.actOnCrossing, Bool.false_eq_true, if_false, Part.confirmCrossing, Part.put_crossed_modRun, read, not]

/-- R77, R79: with the confirm count reached the motor goes over to CLOSED, T its step interval. -/
theorem Part.put_actOnCrossing_handover (hd : data = .ramp t confirm hold) (again : early = false) (tzc : Tick)
    (reached : field (st.profileWord m 12) 1 ≤ confirm + 1) :
    ∃ st', st.ReadOn st' ∧ (p.put m (q.crossed sched prev ru) st sa).actOnCrossing m data early tzc =
      (p.put m (q.crossed sched prev { ru with
        stepConfirmed := true, data := .closed tzc t 0 0 (field (st.profileWord m 9) 1), sched := none }) st' sa).scheduleDetected
          m tzc t (field (st.profileWord m 9) 0) := by
  subst hd again
  obtain ⟨st₁, on₁, read₁⟩ := p.put_readFor m
    (q.crossed sched prev { ru with data := .ramp t (min (confirm + 1) 15) hold, stepConfirmed := true }) st sa
    (hread ((RecordId.profile m).pos 12) (by simp))
  obtain ⟨st₂, on₂, read₂⟩ := p.put_readFor m
    (q.crossed sched prev { ru with data := .ramp t (min (confirm + 1) 15) hold, stepConfirmed := true }) st₁ sa
    (on₁.readableAll hread ((RecordId.profile m).pos 9) (by simp))
  have yes : field (st.word ((RecordId.profile m).pos 12)).fields 1 ≤ confirm + 1 := reached
  refine ⟨st₂, on₁.trans on₂, ?_⟩
  simp only [Part.actOnCrossing, Bool.false_eq_true, if_false, Part.confirmCrossing, Part.put_crossed_modRun, read₁, yes,
    if_true, Part.handover, read₂, on₁.fields]
  rfl

/-- R83: a crossing in CLOSED gives the step interval, clamped. -/
theorem Part.put_actOnCrossing_closed {tRef : Tick} {tStep f lost limit : Nat} (hd : data = .closed tRef tStep f lost limit)
    (tzc : Tick) :
    let step := max (field (st.profileWord m 13) 0) (min (field (st.profileWord m 14) 0) (ticksFrom tzc tRef / (1 + f)))
    ∃ st', st.ReadOn st' ∧
      (p.put m (q.crossed sched prev ru) st sa).actOnCrossing m data early tzc =
      (p.put m (q.crossed sched prev { ru with
        timeout := none, data := .closed tzc step 0 0 (field (st.profileWord m 9) 1) }) st' sa).scheduleDetected m tzc step
          (field (st.profileWord m 9) 0) := by
  intro step
  subst hd
  obtain ⟨st', on, read⟩ := p.put_readAllFor m (q.crossed sched prev ru) st sa
    (l := [(RecordId.profile m).pos 13, (RecordId.profile m).pos 14, (RecordId.profile m).pos 9])
    fun x hx => hread x (by simp at hx ⊢; grind)
  refine ⟨st', on, ?_⟩
  simp only [Part.actOnCrossing, Part.closedCrossing, read, Part.put_crossed_modRun]
  rfl

end

/-- R84: the commutation is scheduled for its instant. -/
theorem Part.put_scheduleDetected_later {tzc : Tick} {tStep adv : Nat} (ne : later tzc (tStep * (16 - adv) / 32) ≠ p.now)
    (h : atOrAfter (later tzc (tStep * (16 - adv) / 32)) p.now = true) :
    (p.put m (q.crossed sched prev ru) st sa).scheduleDetected m tzc tStep adv =
      p.put m (q.crossed sched prev { ru with
        sched := some ⟨later tzc (tStep * (16 - adv) / 32), .detected, false⟩ }) st sa := by
  simp only [Part.scheduleDetected, Part.put_now, ne, if_false, h, if_true, Part.put_crossed_modRun]

/-- R84: a commutation whose instant has come is made at once, LATE where that is past. -/
theorem Part.put_scheduleDetected_now {c : Carrier} {tzc : Tick} {tStep adv : Nat} (hc : q.pace.carrier = some c)
    (room : (q.crossed sched prev ru).listFull p.now = false)
    (h : later tzc (tStep * (16 - adv) / 32) = p.now ∨ atOrAfter (later tzc (tStep * (16 - adv) / 32)) p.now = false) :
    let instant := later tzc (tStep * (16 - adv) / 32)
    let x := (q.crossed sched prev ru).modSeqr fun s => { s with late := if instant = p.now then s.late else bump s.late }
    (p.put m (q.crossed sched prev ru) st sa).scheduleDetected m tzc tStep adv =
      p.put m (x.commutated p.tb.p p.now c ru .detected (decide (instant ≠ p.now)) false none) st (sa.without m) := by
  by_cases eq : later tzc (tStep * (16 - adv) / 32) = p.now
  · simp only [Part.scheduleDetected, Part.put_now, eq, if_true, ne_eq, not_true, decide_false]
    exact Part.put_commutate (q := q.crossed sched prev ru) m rfl hc room (by decide) false
  · have past := h.resolve_left eq
    simp only [Part.scheduleDetected, Part.put_now, eq, if_false, past, Bool.false_eq_true, ne_eq, not_false_iff,
      decide_true, Part.put_modMotor]
    exact Part.put_commutate (q := (q.crossed sched prev ru).modSeqr fun s => { s with late := bump s.late }) m rfl hc room
      (by decide) true

end

end Sys2Proof.Machine
end

section
/-! CONVERSION_COMPLETE of a BLOCK_ON request (R77, R79 to R84, R118). -/

namespace Sys2Proof.Machine

/-! ## The period's list (R89) -/

theorem Motor.listFull_congr {q x : Motor} {now : Tick} (hp : x.pace = q.pace)
    (hl : x.scheds.latest.map Schedule.comms = q.scheds.latest.map Schedule.comms) : x.listFull now = q.listFull now := by
  unfold Motor.listFull
  rw [hp]
  congr 1
  cases hx : x.scheds.latest <;> cases hq : q.scheds.latest <;> simp_all

/-- R81: the flag set leaves the commutations recorded. -/
theorem Schedules.setCrossing_comms (s : Schedules) (id : Nat) :
    (s.setCrossing id).latest.map Schedule.comms = s.latest.map Schedule.comms := by
  simp only [Schedules.setCrossing, Option.map_map]
  congr 1
  funext x
  simp only [Function.comp]
  split
  · cases hd : x.drive <;> simp [Schedule.comms, hd, Drive.setCrossing]
  · rfl

/-! ## The end of the command -/

section
variable {s : State} {code : Code} {m : Slot}

/-- What CONVERSION_COMPLETE of a request of motor m leaves unchanged, t the state it ends in. -/
def State.ConversionEnds (s : State) (code : Code) (m : Slot) (t : State) : Prop :=
  exec (.conversionComplete code) s = .next t ∧ t.pending = s.pending ∧ s.part.Beside t.part m ∧
    (t.part.motor m).slot = (s.part.motor m).slot ∧ (t.part.motor m).prot = (s.part.motor m).prot

theorem State.conversionEnds (he : s.part.en = true) (hq : s.part.Quiet) (hconv : s.part.sampler.conv = some s.part.now)
    {q' : Motor} {st : Store} {sa : Sampler} (work : s.part.converted code = s.part.put m q' st sa)
    (hst : s.part.store.ReadOn st) (slot : q'.slot = (s.part.motor m).slot) (prot : q'.prot = (s.part.motor m).prot) :
    ∃ t, s.ConversionEnds code m t ∧ t.part.motor m = q'.modScheds Schedules.handOn := by
  have delay : s.part.delay (.conversionComplete code) = some 0 := by
    simp [Part.delay, Part.convDelay, hconv, ticksFrom_self]
  obtain ⟨beside, hm, -⟩ := Part.put_settle hq m q' sa hst.corrected
  refine ⟨_, ⟨exec_of_timedWork he rfl delay rfl work, rfl, beside, ?_, ?_⟩, hm⟩
  · exact (congrArg Motor.slot hm).trans slot
  · exact (congrArg Motor.prot hm).trans prot

/-- R112, R118: the head of the FIFO was a BLOCK_ON request's: its sample is judged. -/
theorem Part.converted_block {p : Part} {e : FifoEntry} {rest : List FifoEntry} {id : Nat} {entry : Fin 6} {tag : Byte}
    (hfifo : p.sampler.fifo = e :: rest) (hreq : e.req = .motor m id entry tag) :
    p.converted code = (p.put m (p.motor m) p.store (p.sampler.convert p.now code e rest)).giveCode m id entry code := by
  have self : p.modSampler (·.convert p.now code e rest) =
      p.put m (p.motor m) p.store (p.sampler.convert p.now code e rest) := by
    conv_lhs => rw [← p.put_self m]
    rfl
  rw [← self]
  simp only [Part.converted, hfifo, hreq]

/-! ## The commutation of a crossing (R84) -/

section
variable (he : s.part.en = true) (hq : s.part.Quiet) (hconv : s.part.sampler.conv = some s.part.now)
  {sid : Nat} {entry : Fin 6} {sc : Schedule} {r : Request} {prev : Option PrevSample} {ru : SeqRun} {st : Store}
  {sa : Sampler} (hst : s.part.store.ReadOn st)
include he hq hconv hst

/-- A crossing acted on without a commutation. -/
theorem State.conversionEnds_crossed
    (work : s.part.converted code =
      s.part.put m (((s.part.motor m).completed sid entry r code).crossed sc.id prev ru) st sa) :
    ∃ t, s.ConversionEnds code m t ∧ (s.part.motor m).scheds.MarkedTo (t.part.motor m).scheds sc ∧
      (t.part.motor m).gates = (s.part.motor m).gates ∧
      (t.part.motor m).seqr = { (s.part.motor m).seqr with
        detected := bump (s.part.motor m).seqr.detected
        early := if prev = none then bump (s.part.motor m).seqr.early else (s.part.motor m).seqr.early
        run := some ru } := by
  obtain ⟨t, ends, hm⟩ := State.conversionEnds he hq hconv work hst rfl rfl
  refine ⟨t, ends, ?_, ?_, ?_⟩
  · rw [hm]
    exact (Schedules.setCrossing_marked (Motor.completed_latest (fun _ _ => rfl) _ _ _ _ _)).handOn
  · rw [hm]
    rfl
  · rw [hm]
    rfl

/-- R84: the commutation of a crossing in CLOSED with the step interval tStep. -/
theorem State.crossing_schedules {tzc : Tick} {tStep adv lim : Nat} (hd : ru.data = .closed tzc tStep 0 0 lim)
    (work : s.part.converted code = (s.part.put m
      (((s.part.motor m).completed sid entry r code).crossed sc.id prev ru) st sa).scheduleDetected m tzc tStep adv) :
    let q := s.part.motor m
    let counted := { q.seqr with
      detected := bump q.seqr.detected, early := if prev = none then bump q.seqr.early else q.seqr.early }
    let instant := later tzc (tStep * (16 - adv) / 32)
    (instant ≠ s.part.now → atOrAfter instant s.part.now = true →
      ∃ t, s.ConversionEnds code m t ∧ q.scheds.MarkedTo (t.part.motor m).scheds sc ∧ (t.part.motor m).gates = q.gates ∧
        (t.part.motor m).seqr = { counted with run := some { ru with sched := some ⟨instant, .detected, false⟩ } }) ∧
    (instant = s.part.now ∨ atOrAfter instant s.part.now = false → q.TakesCommutation s.part.now →
      ∃ t u, s.ConversionEnds code m t ∧ q.scheds.MarkedTo (t.part.motor m).scheds sc ∧
        (t.part.motor m).seqr.run = some u ∧ u.step = nextStep ru.dir ru.step ∧ u.data = ru.data ∧
        u.search = some ⟨s.part.now, true, none⟩ ∧ u.sched = none ∧ u.timeout = some (later s.part.now tStep) ∧
        (t.part.motor m).seqr = { counted with
          run := some u
          late := if instant = s.part.now then q.seqr.late else bump q.seqr.late }) := by
  intro q counted instant
  refine ⟨fun ne after => ?_, fun come ht => ?_⟩
  · exact State.conversionEnds_crossed he hq hconv hst (work.trans (Part.put_scheduleDetected_later ne after))
  · have ⟨c, hc, _⟩ := ht
    let crossed := (q.completed sid entry r code).crossed sc.id prev ru
    have room : crossed.listFull s.part.now = false := by
      refine (Motor.listFull_congr (x := crossed) (q := q) rfl ?_).trans ht.not_full
      exact (Schedules.setCrossing_comms _ _).trans (Motor.completed_latest (fun _ _ => rfl) _ _ _ _ _)
    let asked := crossed.modSeqr fun u => { u with late := if instant = s.part.now then u.late else bump u.late }
    obtain ⟨slot, -, -, -, -, prot⟩ := Motor.commutated_keeps (q := asked) (pp := s.part.tb.p) (now := s.part.now) (c := c)
      (r := ru) (kind := .detected) (late := decide (instant ≠ s.part.now)) (postponed := false) (next := none)
    have marked : q.scheds.MarkedTo asked.scheds sc :=
      Schedules.setCrossing_marked (Motor.completed_latest (fun _ _ => rfl) _ _ _ _ _)
    obtain ⟨t, ends, hm⟩ := State.conversionEnds he hq hconv (work.trans (Part.put_scheduleDetected_now hc room come)) hst
      slot prot
    have seqr := (congrArg Motor.seqr hm).trans Motor.commutated_seqr
    refine ⟨t, _, ends, ?_, congrArg Sequencer.run seqr, rfl, ?_, rfl, rfl, ?_, ?_⟩
    · rw [hm]
      exact (Motor.commutated_marked marked).handOn
    · simp [SeqRun.advance, hd, SubData.afterCommutation]
    · simp [SeqRun.advance, hd]
    · rw [seqr]
      rfl

end

end

/-- Settles O32: the sample of the completed group is judged; a crossing is counted and flagged, and acted on by the rule of the
sub-phase. -/
theorem crossingsAreActedOn : Obligations.CrossingsAreActedOn := by
  intro s code e rest m id entry tag sc r cur float at_ ru he hq hconv hfifo hreq hf hk hch hcodes hat hstayed hphases hs hr
    hread w within q x valid ends
  obtain ⟨rfl, -⟩ := Schedules.findReq_found hf
  let sa := s.part.sampler.convert s.part.now code e rest
  let q₁ := q.completed sc.id entry r code
  obtain ⟨st₁, on₁, given⟩ := s.part.put_giveCode_block m q s.part.store sa hf hk hch hcodes hat hstayed hphases
    (hread _ (by simp)) within code
  replace given := (Part.converted_block hfifo hreq).trans given
  have read₁ := on₁.readableAll hread
  have judged := fun h => Part.put_judgeSample_invalid (p := s.part) (m := m) (q := q₁) (st := st₁) (sa := sa) (at_ := at_)
    (inStep := r.inStep) hs hr (read₁ _ (by simp)) sc.id float code h
  rw [on₁.corrected.profileWord] at judged
  refine ⟨fun invalid => ?_, ?_⟩
  · obtain ⟨st₂, on₂, kept⟩ := judged invalid
    obtain ⟨t, ends, hm⟩ := State.conversionEnds he hq hconv (given.trans kept) (on₁.trans on₂) rfl rfl
    exact ⟨t, ends, by rw [hm]; rfl, by rw [hm]; rfl⟩
  · intro se hse isValid crossed
    obtain ⟨inStep, se', hse', searching, late⟩ := isValid
    obtain rfl : se = se' := Option.some.inj (hse.symm.trans hse')
    obtain ⟨st₂, on₂, used⟩ := Part.put_judgeSample_valid (p := s.part) (m := m) (q := q₁) (st := st₁) (sa := sa)
      (at_ := at_) (inStep := r.inStep) hs hr (read₁ _ (by simp)) sc.id float code hse inStep
      searching (by rw [on₁.corrected.profileWord]; exact late)
    replace used := given.trans used
    have on := on₁.trans on₂
    refine ⟨fun uncrossed => ?_, fun shown => ?_⟩
    · obtain ⟨t, ends, hm⟩ := State.conversionEnds he hq hconv (used.trans (Part.put_useSample_kept hr uncrossed)) on rfl rfl
      exact ⟨t, ends, by rw [hm]; rfl, by rw [hm]; rfl⟩
    · intro tzc early stopped counted marked schedules
      replace used := used.trans (Part.put_useSample_crossed hr hse shown)
      have instant : crossingInstant se.prev (crossingValue float code) at_ = tzc := by
        simp only [tzc, crossingInstant]
        cases se.prev <;> rfl
      rw [instant] at used
      have read := on.readableAll hread
      have words := on.corrected.profileWord m
      refine ⟨fun t0 confirm hold hd => ?_, fun tRef tStep f lost limit hd => ?_⟩
      · refine ⟨fun first => ?_, fun again below => ?_, fun again reached => ?_⟩
        · exact State.conversionEnds_crossed he hq hconv on
            (used.trans (Part.actOnCrossing_rampEarly _ m hd (Option.isNone_iff_eq_none.2 first) tzc))
        · obtain ⟨st₃, on₃, confirmed⟩ := Part.put_actOnCrossing_confirms read hd
            (Option.isNone_eq_false_iff.2 (Option.isSome_iff_ne_none.2 again)) tzc (by rw [words]; exact below)
          exact State.conversionEnds_crossed he hq hconv (on.trans on₃) (used.trans confirmed)
        · obtain ⟨st₃, on₃, handed⟩ := Part.put_actOnCrossing_handover read hd
            (Option.isNone_eq_false_iff.2 (Option.isSome_iff_ne_none.2 again)) tzc (by rw [words]; exact reached)
          rw [words] at handed
          exact State.crossing_schedules he hq hconv (on.trans on₃) rfl (used.trans handed)
      · obtain ⟨st₃, on₃, closed⟩ := Part.put_actOnCrossing_closed read hd tzc
        rw [words, words, words] at closed
        exact State.crossing_schedules he hq hconv (on.trans on₃) rfl (used.trans closed)

end Sys2Proof.Machine
end

section
/-! What a valley makes of its parts: the valley levels (R56, R74), the requests of the due entries (R95, R96) and their place
on the waiting list (R113, R114). -/

namespace Sys2Proof.Machine

/-! ## The valley levels (R56, R74) -/

/-- The valley level of a gate. -/
def PhaseLevel.of (l : PhaseLevel) : Switch → Bool
  | .low => l.low
  | .high => l.high

/-- R56: of one phase, the gates whose valley level is off are turned off. -/
def GateStage.valleyOff (now : Tick) (lv : PerPhase PhaseLevel) (x : Phase) (st : GateStage) : GateStage :=
  let st := if (lv.get x).low then st else st.turnOff now x .low
  if (lv.get x).high then st else st.turnOff now x .high

/-- R56: of one phase, the gates whose valley level is on are requested on. -/
def GateStage.valleyOn (now : Tick) (dt : Nat) (lv : PerPhase PhaseLevel) (x : Phase) (st : GateStage) : GateStage :=
  let st := if (lv.get x).low then st.turnOn now dt false x .low else st
  if (lv.get x).high then st.turnOn now dt false x .high else st

theorem GateStage.valleyChange_eq (st : GateStage) (now : Tick) (dt : Nat) (lv : PerPhase PhaseLevel) :
    st.valleyChange now dt lv = (st.eachPhase (valleyOff now lv)).eachPhase (valleyOn now dt lv) := rfl

section
variable {P : GateStage → Prop} {f : Phase → GateStage → GateStage} (keeps : ∀ x st, P st → P (f x st))
include keeps

theorem GateStage.eachPhase_keeps {st : GateStage} (h : P st) : P (st.eachPhase f) := keeps _ _ (keeps _ _ (keeps _ _ h))

theorem GateStage.eachPhase_reaches {y : Phase} (made : ∀ st, P (f y st)) (st : GateStage) : P (st.eachPhase f) := by
  cases y
  · exact keeps _ _ (keeps _ _ (made _))
  · exact keeps _ _ (made _)
  · exact made _

end

section
variable (st : GateStage) (now : Tick) (dt : Nat) {x y : Phase} {g s : Switch}

/-- R66: a turn-on keeps a gate on that is on. -/
theorem GateStage.turnOn_keepsOn (counted : Bool) (h : (st.gateAt y g).on = true) :
    ((st.turnOn now dt counted x s).gateAt y g).on = true := by
  by_cases same : y = x ∧ g = s
  · obtain ⟨rfl, rfl⟩ := same
    rw [GateStage.turnOn_self, if_pos h]
    exact h
  · rw [st.turnOn_other now dt counted same]
    exact h

/-- R66: a turn-on keeps a gate on or waiting that is so. -/
theorem GateStage.turnOn_keepsWanted (counted : Bool)
    (h : (st.gateAt y g).on = true ∨ (st.gateAt y g).pend.isSome = true) :
    ((st.turnOn now dt counted x s).gateAt y g).on = true ∨ ((st.turnOn now dt counted x s).gateAt y g).pend.isSome = true := by
  by_cases same : y = x ∧ g = s
  · obtain ⟨rfl, rfl⟩ := same
    exact st.turnOn_on now dt counted y g
  · rw [st.turnOn_other now dt counted same]
    exact h

/-- R66: a turn-off keeps a gate off that is off. -/
theorem GateStage.turnOff_keepsOff (h : (st.gateAt y g).on = false ∧ (st.gateAt y g).pend = none) :
    ((st.turnOff now x s).gateAt y g).on = false ∧ ((st.turnOff now x s).gateAt y g).pend = none := by
  by_cases same : y = x ∧ g = s
  · obtain ⟨rfl, rfl⟩ := same
    exact st.turnOff_off now y g
  · rw [st.turnOff_other now same]
    exact h

/-- A turn-off made unless its gate is to stay on touches no gate that is. -/
theorem GateStage.turnOff_unless {stays : Bool} (h : y = x → g = s → stays = true) :
    (if stays then st else st.turnOff now x s).gateAt y g = st.gateAt y g := by
  split
  · rfl
  · next not => exact st.turnOff_other now fun k => not (h k.1 k.2)

/-- A turn-on made where its gate is to come on touches no gate that is not. -/
theorem GateStage.turnOn_if {comes : Bool} (h : y = x → g = s → comes = false) :
    (if comes then st.turnOn now dt false x s else st).gateAt y g = st.gateAt y g := by
  split
  · next on => exact st.turnOn_other now dt false fun k => by simp [h k.1 k.2] at on
  · rfl

variable (lv : PerPhase PhaseLevel)

theorem GateStage.valleyOff_level (h : y = x → (lv.get x).of g = true) :
    (valleyOff now lv x st).gateAt y g = st.gateAt y g := by
  unfold valleyOff
  simp only
  rw [GateStage.turnOff_unless _ now fun e hg => by rw [← h e, hg]; rfl,
    st.turnOff_unless now fun e hg => by rw [← h e, hg]; rfl]

theorem GateStage.valleyOff_keepsOff (h : (st.gateAt y g).on = false ∧ (st.gateAt y g).pend = none) :
    ((valleyOff now lv x st).gateAt y g).on = false ∧ ((valleyOff now lv x st).gateAt y g).pend = none := by
  unfold valleyOff
  simp only
  split <;> split
  · exact h
  · exact st.turnOff_keepsOff now h
  · exact st.turnOff_keepsOff now h
  · exact (st.turnOff now x .low).turnOff_keepsOff now (st.turnOff_keepsOff now h)

theorem GateStage.valleyOff_off (h : (lv.get y).of g = false) :
    ((valleyOff now lv y st).gateAt y g).on = false ∧ ((valleyOff now lv y st).gateAt y g).pend = none := by
  unfold valleyOff
  simp only
  cases g with
  | high =>
    rw [if_neg (by simpa [PhaseLevel.of] using h)]
    exact GateStage.turnOff_off _ now y .high
  | low =>
    rw [if_neg (show ¬(lv.get y).low = true by simpa [PhaseLevel.of] using h)]
    split
    · exact st.turnOff_off now y .low
    · exact (st.turnOff now y .low).turnOff_keepsOff now (st.turnOff_off now y .low)

theorem GateStage.valleyOn_level (h : y = x → (lv.get x).of g = false) :
    (valleyOn now dt lv x st).gateAt y g = st.gateAt y g := by
  unfold valleyOn
  simp only
  rw [GateStage.turnOn_if _ now dt fun e hg => by rw [← h e, hg]; rfl,
    st.turnOn_if now dt fun e hg => by rw [← h e, hg]; rfl]

theorem GateStage.valleyOn_keepsOn (h : (st.gateAt y g).on = true) : ((valleyOn now dt lv x st).gateAt y g).on = true := by
  unfold valleyOn
  simp only
  split <;> split
  · exact (st.turnOn now dt false x .low).turnOn_keepsOn now dt false (st.turnOn_keepsOn now dt false h)
  · exact st.turnOn_keepsOn now dt false h
  · exact st.turnOn_keepsOn now dt false h
  · exact h

theorem GateStage.valleyOn_keepsWanted (h : (st.gateAt y g).on = true ∨ (st.gateAt y g).pend.isSome = true) :
    ((valleyOn now dt lv x st).gateAt y g).on = true ∨ ((valleyOn now dt lv x st).gateAt y g).pend.isSome = true := by
  unfold valleyOn
  simp only
  split <;> split
  · exact (st.turnOn now dt false x .low).turnOn_keepsWanted now dt false (st.turnOn_keepsWanted now dt false h)
  · exact st.turnOn_keepsWanted now dt false h
  · exact st.turnOn_keepsWanted now dt false h
  · exact h

theorem GateStage.valleyOn_wanted (h : (lv.get y).of g = true) :
    ((valleyOn now dt lv y st).gateAt y g).on = true ∨ ((valleyOn now dt lv y st).gateAt y g).pend.isSome = true := by
  unfold valleyOn
  simp only
  cases g with
  | high =>
    rw [if_pos (show (lv.get y).high = true from h)]
    exact GateStage.turnOn_on _ now dt false y .high
  | low =>
    rw [if_pos (show (lv.get y).low = true from h)]
    split
    · exact (st.turnOn now dt false y .low).turnOn_keepsWanted now dt false (st.turnOn_on now dt false y .low)
    · exact st.turnOn_on now dt false y .low

/-- R56, R74: a gate after a valley change, from gates `before` that a role change may have moved. -/
theorem GateStage.valleyChange_settled {before : GateStage} {level : Prop} (hl : level ↔ (lv.get y).of g = true)
    (kept : level → (before.gateAt y g).on = true → (st.gateAt y g).on = true) :
    before.Settled (st.valleyChange now dt lv) y g level := by
  rw [GateStage.valleyChange_eq]
  have mid : level → (st.eachPhase (valleyOff now lv)).gateAt y g = st.gateAt y g := fun on =>
    GateStage.eachPhase_keeps (P := fun u => u.gateAt y g = st.gateAt y g)
      (fun x u h => (u.valleyOff_level now lv fun e => e ▸ hl.1 on).trans h) rfl
  refine ⟨fun off => ?_, fun on => ?_, fun on was => ?_⟩
  · have low : (lv.get y).of g = false := by simpa using fun h => off (hl.2 h)
    refine GateStage.eachPhase_keeps (P := fun u => (u.gateAt y g).on = false ∧ (u.gateAt y g).pend = none) (fun x u h => ?_)
      (GateStage.eachPhase_reaches (y := y) (f := valleyOff now lv) (fun x u h => u.valleyOff_keepsOff now lv h)
        (fun u => u.valleyOff_off now lv low) st)
    rw [u.valleyOn_level now dt lv fun e => e ▸ low]
    exact h
  · exact GateStage.eachPhase_reaches (y := y) (f := valleyOn now dt lv)
      (P := fun u => (u.gateAt y g).on = true ∨ (u.gateAt y g).pend.isSome = true)
      (fun x u h => u.valleyOn_keepsWanted now dt lv h) (fun u => u.valleyOn_wanted now dt lv (hl.1 on)) _
  · exact GateStage.eachPhase_keeps (P := fun u => (u.gateAt y g).on = true) (fun x u h => u.valleyOn_keepsOn now dt lv h)
      (by rw [mid on]; exact kept on was)

/-- R73: a role change keeps on the gates that the new step wants on. -/
theorem GateStage.switchRoles_keepsOn (dir : Direction) (step : Fin 6)
    (h : (g = .low ∧ y = (rolesOf (nextStep dir step)).low) ∨ (g = .high ∧ y = (rolesOf (nextStep dir step)).pulsed))
    (was : (st.gateAt y g).on = true) :
    ((st.switchRoles now dt (rolesOf step) (rolesOf (nextStep dir step))).gateAt y g).on = true := by
  rcases roles_change dir step with ⟨low, pulsed⟩ | ⟨low, pulsed⟩
  · rw [st.switchRoles_low now dt low pulsed]
    refine GateStage.turnOn_keepsOn _ now dt true ?_
    rw [st.turnOff_other now fun k => ?_]
    · exact was
    · rcases h with ⟨-, hy⟩ | ⟨hg, -⟩
      · exact low (k.1.symm.trans hy)
      · simp [hg] at k
  · rw [st.switchRoles_pulsed now dt low pulsed, st.turnOff_other now fun k => ?_]
    · exact was
    · rcases h with ⟨hg, -⟩ | ⟨-, hy⟩
      · simp [hg] at k
      · exact pulsed (k.1.symm.trans hy)

end

end Sys2Proof.Machine
end

section
/-! The requests of a period (R94 to R96) and their place on the waiting list (R113, R114). -/

namespace Sys2Proof.Machine

/-! ## The entries due and what the window finder reads for them (R94, R95) -/

theorem planEntries_index (ws : List (List Nat)) : (planEntries ws).map (·.index) = List.finRange 6 := by
  rw [planEntries, List.map_map]
  exact List.map_id _

/-- R94: of the entries due no two are the same. -/
theorem Part.dueEntries_nodup (p : Part) (m : Slot) (period : Byte) : ((p.dueEntries m period).map (·.index)).Nodup := by
  refine List.Nodup.sublist (List.filter_sublist.map _) ?_
  rw [planEntries_index]
  exact List.nodup_finRange 6

/-- Words read in order, looked up by their number. -/
theorem lookup_zip_map {f : Nat → List Nat} {k : Nat} {ks : List Nat} (h : k ∈ ks) :
    ((List.zip ks (ks.map f)).lookup k).getD [] = f k := by
  induction ks with
  | nil => exact absurd h List.not_mem_nil
  | cons a l ih =>
    rw [List.map_cons, List.zip_cons_cons, List.lookup_cons]
    by_cases e : k = a
    · simp [e]
    · simp only [beq_false_of_ne e]
      exact ih ((List.mem_cons.1 h).resolve_left e)

/-- R95: the words of a due entry's kind are among those read. -/
theorem PlanKind.words_read {due : List PlanEntry} {e : PlanEntry} (he : e ∈ due) {k : Nat} (hk : k ∈ e.kind.words) :
    k ∈ finderWords due := by
  refine List.mem_append_left _ (List.mem_filter.2 ⟨?_, List.any_eq_true.2 ⟨e, he, List.contains_iff_mem.2 hk⟩⟩)
  generalize e.kind = kind at hk
  cases kind <;> simp [PlanKind.words] at hk ⊢ <;> omega

/-- R95: the request that an entry of a BLOCK period makes depends on the words of its kind only. -/
theorem PlanEntry.request_block (p : Part) (m : Slot) (len : Nat) {e : PlanEntry} {fs : Nat → List Nat} {bus : Fin 16}
    (hfs : ∀ k ∈ e.kind.words, fs k = p.store.profileWord m k)
    (hbus : e.kind = .blockOn → bus = analogInput (field (p.store.word 3).fields 0)) (step : Fin 6) (u : Pulse) :
    e.request (finderInput p.tb.p len fs bus) (.block step u) = e.request (p.finderOf m len) (.block step u) := by
  have priority : fs 7 = p.store.profileWord m 7 := hfs 7 (by cases e.kind <;> simp [PlanKind.words])
  have asked : e.ask (finderInput p.tb.p len fs bus) (.block step u) = e.ask (p.finderOf m len) (.block step u) := by
    cases hk : e.kind with
    | blockOn =>
      rw [hk] at hfs
      simp only [PlanKind.words, List.mem_cons, List.not_mem_nil, or_false, forall_eq_or_imp, forall_eq] at hfs
      obtain ⟨st, channels, voltages, offsets, -⟩ := hfs
      simp only [PlanEntry.ask, hk, finderInput, Part.finderOf, blockWindow, st, channels, voltages, offsets, hbus hk]
      rfl
    | legPair | linkA | linkB => simp only [PlanEntry.ask, hk]
    | auxValley | auxPeak => simp only [PlanEntry.ask, hk, auxWindow, finderInput, Part.finderOf]
  rw [PlanEntry.request, PlanEntry.request, asked]
  simp only [finderInput, Part.finderOf, priority]

/-! ## The requests planned at the valley join the list (R113, R114) -/

theorem mem_insertWait {w a : WaitItem} {l : List WaitItem} : w ∈ insertWait a l ↔ w = a ∨ w ∈ l := by
  obtain ⟨front, back, hl, hj, -, -⟩ := insertWait_joined a l
  rw [hj, hl]
  simp only [List.mem_append, List.mem_cons]
  grind

/-- R113: the schedules with the requests of some entries of the latest one marked as joined. -/
def Schedules.markJoined (s : Schedules) (entries : List (Fin 6)) : Schedules :=
  { s with latest := s.latest.map fun sc =>
      { sc with reqs := sc.reqs.map fun x => if x.entry ∈ entries then { x with joined := true } else x } }

theorem Schedules.markJoined_nil (s : Schedules) : s.markJoined [] = s := by
  cases hl : s.latest with
  | none => rw [Schedules.markJoined, hl, Option.map_none, ← hl]
  | some sc =>
    rw [Schedules.markJoined, hl]
    simp only [List.not_mem_nil, if_false, List.map_id', Option.map_some]
    rw [← hl]

theorem Schedules.markJoined_cons (s : Schedules) (entry : Fin 6) (entries : List (Fin 6)) :
    (s.markJoined [entry]).markJoined entries = s.markJoined (entry :: entries) := by
  simp only [Schedules.markJoined, Option.map_map]
  congr 2
  funext sc
  simp only [Function.comp, List.map_map]
  congr 1
  refine List.map_congr_left fun x _ => ?_
  simp only [Function.comp, List.mem_cons, List.not_mem_nil, or_false]
  by_cases first : x.entry = entry
  · simp [first]
  · simp only [first, if_false, false_or]

/-- R113: requests join one after another. -/
theorem Part.put_joinRequests (p : Part) (m : Slot) (st : Store) (sc : Schedule) (l : List Request)
    (h : ∀ r ∈ l, r.window.isSome = true) (q : Motor) (sa : Sampler) :
    ∃ sa', (∀ w, w ∈ sa'.waiting ↔ w ∈ sa.waiting ∨ ∃ r ∈ l, r.waitItem m sc.id sc.valley = some w) ∧
      l.foldl (fun p r => p.joinRequest m sc r) (p.put m q st sa) =
        p.put m (q.modScheds (·.markJoined (l.map (·.entry)))) st sa' := by
  induction l generalizing q sa with
  | nil => exact ⟨sa, by simp, by rw [List.map_nil, Motor.modScheds, Schedules.markJoined_nil]; rfl⟩
  | cons r l ih =>
    obtain ⟨w, hw⟩ : ∃ w, r.waitItem m sc.id sc.valley = some w := by
      obtain ⟨x, hx⟩ := Option.isSome_iff_exists.1 (h r List.mem_cons_self)
      exact ⟨_, by rw [Request.waitItem, hx]; rfl⟩
    have joined : (p.put m q st sa).joinRequest m sc r =
        p.put m (q.modScheds (·.markJoined [r.entry])) st (sa.joinList w) := by
      simp only [Part.joinRequest, hw, Part.put_modSampler, Part.put_modMotor, Schedules.markJoined, List.mem_singleton]
    obtain ⟨sa', waiting, all⟩ := ih (fun x hx => h x (List.mem_cons_of_mem _ hx)) (q.modScheds (·.markJoined [r.entry]))
      (sa.joinList w)
    refine ⟨sa', fun x => ?_, ?_⟩
    · rw [waiting, Sampler.joinList, mem_insertWait]
      simp only [List.mem_cons, exists_eq_or_imp, hw, Option.some.injEq]
      grind
    · rw [List.foldl_cons, joined, all, List.map_cons]
      simp only [Motor.modScheds, Schedules.markJoined_cons]

/-- R113: of requests of different entries, the mark goes to those that join. -/
theorem markJoined_own {reqs : List Request} (h : (reqs.map (·.entry)).Nodup) (joins : Request → Bool) :
    (reqs.map fun x => if x.entry ∈ (reqs.filter joins).map (·.entry) then { x with joined := true } else x) =
      reqs.map fun x => if joins x then { x with joined := true } else x := by
  refine List.map_congr_left fun x hx => if_congr ?_ rfl rfl
  rw [List.mem_map]
  constructor
  · rintro ⟨y, hy, e⟩
    obtain ⟨hy, joins⟩ := List.mem_filter.1 hy
    rwa [← List.inj_on_of_nodup_map h hy hx e]
  · exact fun joins => ⟨x, List.mem_filter.2 ⟨hx, joins⟩, rfl⟩

end Sys2Proof.Machine
end

section
/-! A BLOCK period that a valley opens (R11, R12, R40, R45, R55, R56, R72 to R74, R94 to R96, R113). -/

namespace Sys2Proof.Machine

/-! ## The queue, the drive and the windows of the valley work -/

/-- What the sequencer makes of a period on a step with a pulse, the commutations at the valley recorded (R72, R73). -/
def Planned.block (p : Nat) (step : Fin 6) (u : Pulse) (comms : List CommEntry) : Planned where
  drive := .block step u comms false
  windows := .block step u
  edges := blockEdges p (rolesOf step) u
  level := ⟨blockLevel p (rolesOf step) u .u, blockLevel p (rolesOf step) u .v, blockLevel p (rolesOf step) u .w⟩
  figE := p / 2

/-- R73: the motor with its run given the period's direction and pulse; the commutations at the valley are recorded. -/
def Motor.steered (q : Motor) (r : SeqRun) (dir : Direction) (u : Pulse) : Motor :=
  q.modSeqr fun s => { s with run := some { r with dir := dir, pulse := u, opening := [] } }

/-- R40: the motor whose queue has decided. -/
def Part.decided (p : Part) (m : Slot) (period : Byte) : Motor :=
  { p.motor m with setq := ((p.motor m).setq.decide period (p.motor m).setq.recs).2 }

section
variable {p : Part} {m : Slot}

/-- R40, R43: the queue's decision where starvation does not stop the motor. -/
theorem Part.valleySetpoint_applied {period : Byte} (hn : p.NotStarved m period)
    (hread : p.store.Readable ((RecordId.profile m).pos 15)) :
    ∃ st, p.store.ReadOn st ∧ p.valleySetpoint m period =
      (some ((p.motor m).setq.decide period (p.motor m).setq.recs).1, p.put m (p.decided m period) st p.sampler) := by
  let d := (p.motor m).setq.decide period (p.motor m).setq.recs
  have moved : p.modMotor m (fun q => { q with setq := ((p.motor m).setq.decide period (p.motor m).setq.recs).2 }) =
      p.put m (p.decided m period) p.store p.sampler := p.modMotor_eq_put m _
  by_cases held : d.1 = .held
  · obtain ⟨st, on, read⟩ := p.put_readFor m (p.decided m period) p.store p.sampler hread
    refine ⟨st, on, ?_⟩
    have fed : ¬field (p.store.word ((RecordId.profile m).pos 15)).fields 0 ≤ d.2.starved := by
      have starved : d.2.starved = min ((p.motor m).setq.starved + 1) 255 := (SetQueue.decide_held _ _ period held).1
      have more : (p.motor m).setq.starved + 1 < field (p.store.profileWord m 15) 0 := hn held
      rw [Store.profileWord] at more
      omega
    rw [Part.valleySetpoint, moved]
    refine (if_pos held).trans ?_
    rw [read]
    simp only [Part.put_motor]
    exact if_neg fed
  · refine ⟨p.store, .refl _, ?_⟩
    rw [Part.valleySetpoint, moved]
    exact if_neg held

section
variable {q : Motor} {st : Store} {sa : Sampler} {r : SeqRun} (hr : q.seqr.run = some r)
include hr

/-- R72, R73: the drive of a BLOCK period after ALIGN. -/
theorem Part.put_planBlockDrive (hd : ∀ n, r.data ≠ .align n)
    (hread : st.ReadableAll ([2, 10, 11].map (RecordId.profile m).pos)) (dir : Direction) (alignStep : Fin 6) :
    let u := blockPulse q.setq.applied.duty.u p.tb.p (field (st.profileWord m 2) 1)
    ∃ st', st.ReadOn st' ∧ (p.put m q st sa).planBlockDrive m dir alignStep =
      (some (.block p.tb.p r.step u r.opening), p.put m (q.steered r dir u) st' sa) := by
  intro u
  obtain ⟨st', on, read⟩ := p.put_readAllFor m q st sa hread
  refine ⟨st', on, ?_⟩
  have moved : ∀ a b, (p.put m q st' sa).moveSubPhase m a b dir alignStep = (some { r with dir := dir }, p.put m q st' sa) := by
    intro a b
    cases hk : r.data with
    | align n => exact absurd hk (hd n)
    | ramp | closed => simp only [Part.moveSubPhase, Part.put_motor, hr, hk]
  have duty : ∀ a, r.data.duty a q.setq.applied.duty.u = q.setq.applied.duty.u := by
    intro a
    cases hk : r.data with
    | align n => exact absurd hk (hd n)
    | ramp | closed => rfl
  simp only [List.map_cons, List.map_nil] at read
  simp only [Part.planBlockDrive, read, moved, Part.put_motor, Part.put_tb, Part.put_modMotor, duty]
  rfl

end

/-- R95: at such a valley every word of the profile can be read. -/
theorem Part.ValleyReadable.profile (h : p.ValleyReadable m) {k : Nat} (hk : k < 16) :
    p.store.Readable ((RecordId.profile m).pos k) :=
  h _ (List.mem_cons_of_mem _ (List.mem_append_left _ (List.mem_map_of_mem (List.mem_range.2 hk))))

theorem Part.ValleyReadable.profileAll (h : p.ValleyReadable m) {l : List Nat} (hl : ∀ k ∈ l, k < 16) :
    p.store.ReadableAll (l.map (RecordId.profile m).pos) := fun pos hpos => by
  obtain ⟨k, hk, rfl⟩ := List.mem_map.1 hpos
  exact h.profile (hl k hk)

theorem finderWords_lt {due : List PlanEntry} {k : Nat} (h : k ∈ finderWords due) : k < 16 := by
  rcases List.mem_append.1 h with h | h
  · have := (List.mem_filter.1 h).1
    simp only [List.mem_cons, List.not_mem_nil, or_false] at this
    omega
  · rw [List.mem_singleton.1 h]
    decide

/-- R95: the bus channel is read where a BLOCK_ON entry is due. -/
theorem Part.put_readBusChannel {q : Motor} {st : Store} {sa : Sampler} (hread : st.Readable (RecordId.config.pos 3))
    (due : List PlanEntry) : ∃ st' bus, st.ReadOn st' ∧
      (p.put m q st sa).readBusChannel m due = (some bus, p.put m q st' sa) ∧
      ((due.any (·.kind == .blockOn)) = true → bus = analogInput (field (st.word 3).fields 0)) := by
  unfold Part.readBusChannel
  cases due.any (·.kind == .blockOn) with
  | false => exact ⟨st, 0, .refl _, by simp, by simp⟩
  | true =>
    obtain ⟨st', on, read⟩ := p.put_readFor m q st sa hread
    refine ⟨st', _, on, ?_, fun _ => rfl⟩
    simp only [if_true, read]
    rfl

/-- R95, R128: the stream identifier and the requests of a BLOCK period. -/
theorem Part.put_findWindows {q : Motor} {st : Store} {sa : Sampler} (hst : p.store.ReadOn st) (period : Byte)
    (hread : p.ValleyReadable m) (step : Fin 6) (u : Pulse) (len : Nat) :
    ∃ st', st.ReadOn st' ∧ (p.put m q st sa).findWindows m (p.dueEntries m period) (.block step u) len =
      (some (BitVec.ofNat 8 (field (p.store.profileWord m 15) 1),
        (p.dueEntries m period).map fun e => e.request (p.finderOf m len) (.block step u)), p.put m q st' sa) := by
  let due := p.dueEntries m period
  obtain ⟨st₁, on₁, words⟩ := p.put_readAllFor m q st sa
    (hst.readableAll (hread.profileAll (l := finderWords due) fun _ => finderWords_lt))
  obtain ⟨st₂, bus, on₂, read, channel⟩ := Part.put_readBusChannel (p := p) (m := m) (q := q) (sa := sa)
    ((hst.trans on₁).readable _ (hread _ List.mem_cons_self)) due
  refine ⟨st₂, on₁.trans on₂, ?_⟩
  let fs := fun k => ((List.zip (finderWords due) ((finderWords due).map (p.store.profileWord m))).lookup k).getD []
  have looked : ∀ k ∈ finderWords due, fs k = p.store.profileWord m k := fun k hk => lookup_zip_map hk
  have fields : ((finderWords due).map (RecordId.profile m).pos).map (fun pos => (st.word pos).fields) =
      (finderWords due).map (p.store.profileWord m) := by
    rw [List.map_map]
    exact List.map_congr_left fun k _ => hst.fields _
  have requests : due.map (fun e => e.request (finderInput p.tb.p len fs bus) (.block step u)) =
      due.map fun e => e.request (p.finderOf m len) (.block step u) := by
    refine List.map_congr_left fun e he => PlanEntry.request_block p m len (fun k hk => looked k (PlanKind.words_read he hk))
      (fun hk => ?_) step u
    rw [channel (List.any_eq_true.2 ⟨e, he, by simp [hk]⟩), on₁.fields, hst.fields]
  have stream : fs 15 = p.store.profileWord m 15 := looked 15 (List.mem_append_right _ (List.mem_singleton_self _))
  rw [fields] at words
  simp only [Part.findWindows]
  rw [show p.dueEntries m period = due from rfl, words]
  simp only
  rw [read]
  simp only [Part.put_tb]
  rw [← requests, ← stream]

/-- R12, R72 to R74: the length of a BLOCK period. -/
theorem lengthBy_appliedTrim (trim : Int) {pp figE : Nat} (hp : 2000 ≤ pp) :
    LengthBy trim pp figE ((pp : Int) + appliedTrim trim pp figE).toNat ∧
      ((((pp : Int) + appliedTrim trim pp figE).toNat : Nat) : Int) - pp = appliedTrim trim pp figE := by
  have low : -255 ≤ appliedTrim trim pp figE := by
    unfold appliedTrim clampInt
    simp only
    split <;> omega
  have whole : ((((pp : Int) + appliedTrim trim pp figE).toNat : Nat) : Int) = pp + appliedTrim trim pp figE :=
    Int.toNat_of_nonneg (by omega)
  refine ⟨?_, by omega⟩
  rw [LengthBy, whole]
  rfl

end

end Sys2Proof.Machine
end

section
/-! The period of a valley that makes a postponed commutation first (R11, R73, R89). -/

namespace Sys2Proof.Machine

/-! ## The requests of a new period (R96, R113) -/

/-- R113: the request's planned instant is the valley. -/
def Request.joinsAtValley (r : Request) : Bool := r.window.any fun w => w.2.1 == 0

/-- R113: a new request as the valley leaves it. -/
def Request.atValley (r : Request) : Request := { r with joined := r.joinsAtValley }

theorem Part.requestsOf_eq (p : Part) (m : Slot) (period : Byte) (len : Nat) (d : DriveWindows) : p.requestsOf m period len d =
    ((p.dueEntries m period).map fun e => e.request (p.finderOf m len) d).map Request.atValley := by
  rw [List.map_map]
  rfl

theorem Part.requests_nodup (p : Part) (m : Slot) (period : Byte) (len : Nat) (d : DriveWindows) :
    (((p.dueEntries m period).map fun e => e.request (p.finderOf m len) d).map (·.entry)).Nodup := by
  rw [List.map_map]
  exact p.dueEntries_nodup m period

/-- R96: a new request is UNMEASURABLE where its window does not exist. -/
theorem Part.requestsOf_unmeasurable {p : Part} {m : Slot} {period : Byte} {len : Nat} {d : DriveWindows} {r : Request}
    (h : r ∈ p.requestsOf m period len d) : (r.status == .unmeasurable) = r.window.isNone := by
  obtain ⟨e, -, rfl⟩ := List.mem_map.1 h
  simp only [PlanEntry.request]
  cases (e.ask (p.finderOf m len) d).window <;> rfl

/-- R113: of a period's fresh requests the mark goes to those planned at the valley. -/
theorem markJoined_atValley {reqs : List Request} (distinct : (reqs.map (·.entry)).Nodup)
    (fresh : ∀ r ∈ reqs, r.joined = false) :
    (reqs.map fun x => if x.entry ∈ (reqs.filter Request.joinsAtValley).map (·.entry) then { x with joined := true } else x) =
      reqs.map Request.atValley := by
  rw [markJoined_own distinct]
  refine List.map_congr_left fun r hr => ?_
  have unmarked := fresh r hr
  unfold Request.atValley
  cases r.joinsAtValley with
  | true => rfl
  | false =>
    exact (if_neg (by decide)).trans (by rw [← unmarked])

/-! ## The period begins -/

/-- R96: the mark of the waiting list does not change what the finder counts. -/
theorem Finder.count_atValley (f : Finder) (reqs : List Request) : f.count (reqs.map Request.atValley) = f.count reqs := by
  have status : (fun r : Request => r.status == .unmeasurable) ∘ Request.atValley = fun r => r.status == .unmeasurable := rfl
  rw [Finder.count, Finder.count, List.length_map, List.filter_map, List.length_map, status]

/-- R113: the requests that join at the valley are those planned there. -/
theorem Part.put_joinAtValley (p : Part) (m : Slot) {q : Motor} (st : Store) (sa : Sampler) {sc : Schedule}
    (hl : q.scheds.latest = some sc) : (p.put m q st sa).joinAtValley m =
      (sc.reqs.filter Request.joinsAtValley).foldl (fun p r => p.joinRequest m sc r) (p.put m q st sa) := by
  unfold Part.joinAtValley
  simp only [Part.put_motor, hl]
  refine congrArg (List.foldl _ _) (List.filter_congr fun r _ => ?_)
  unfold Request.joinsAtValley
  cases r.window <;> rfl

/-- R11, R113: the period begins, and the requests planned at the valley join the list. -/
theorem Part.put_beginPeriod (p : Part) (m : Slot) (q : Motor) (st : Store) (sa : Sampler) (n : NewPeriod)
    (distinct : (n.reqs.map (·.entry)).Nodup) (fresh : ∀ r ∈ n.reqs, r.joined = false) :
    ∃ sa', (∀ w, w ∈ sa'.waiting ↔
        w ∈ sa.waiting ∨ ∃ r ∈ n.reqs, r.joinsAtValley = true ∧ r.waitItem m p.nextSched p.now = some w) ∧
      (p.put m q st sa).beginPeriod m n = ({ p with nextSched := p.nextSched + 1 } : Part).put m
        (q.beginPeriod p.tb.p p.now p.nextSched { n with reqs := n.reqs.map Request.atValley }) st sa' := by
  let begun := q.beginPeriod p.tb.p p.now p.nextSched n
  let joining := n.reqs.filter Request.joinsAtValley
  obtain ⟨sa', waiting, joined⟩ := Part.put_joinRequests { p with nextSched := p.nextSched + 1 } m st
    (n.schedule p.nextSched p.now q.setq) joining
    (fun r hr => Option.isSome_of_any (List.mem_filter.1 hr).2) begun sa
  have marked : begun.modScheds (·.markJoined (joining.map (·.entry))) =
      q.beginPeriod p.tb.p p.now p.nextSched { n with reqs := n.reqs.map Request.atValley } := by
    have drawn : (q.scheds.push (n.schedule p.nextSched p.now q.setq)).markJoined (joining.map (·.entry)) =
        q.scheds.push ({ n with reqs := n.reqs.map Request.atValley }.schedule p.nextSched p.now q.setq) := by
      simp only [joining, Schedules.markJoined, Schedules.push, Option.map_some, NewPeriod.schedule,
        markJoined_atValley distinct fresh]
    have counted := q.finder.count_atValley n.reqs
    have flags : (n.reqs.map Request.atValley).isEmpty = n.reqs.isEmpty := List.isEmpty_map
    simp only [Motor.modScheds, begun, Motor.beginPeriod, drawn, counted, flags]
    rfl
  refine ⟨sa', fun w => ?_, ?_⟩
  · rw [waiting]
    simp only [joining, List.mem_filter, and_assoc]
    rfl
  · rw [← marked, ← joined]
    have begins : (p.put m q st sa).beginPeriod m n =
        (({ p with nextSched := p.nextSched + 1 } : Part).put m begun st sa).joinAtValley m :=
      congrArg (Part.joinAtValley · m) (Part.put_modMotor { p with nextSched := p.nextSched + 1 } m q st sa _)
    exact begins.trans (Part.put_joinAtValley { p with nextSched := p.nextSched + 1 } m (q := begun) st sa rfl)

/-! ## The BLOCK period begun -/

theorem SetQueue.handFlags_applied (s : SetQueue) (anyDue : Bool) : (s.handFlags anyDue).applied = s.applied := by
  cases anyDue <;> rfl

/-- R45: the flags are handed on where an entry is due. -/
theorem SetQueue.handFlags_requests (s : SetQueue) (p : Part) (m : Slot) (period : Byte) (len : Nat) (d : DriveWindows) :
    s.handFlags (!(p.requestsOf m period len d).isEmpty) =
      if p.dueEntries m period = [] then s else { s with overrunFlag := false, staleFlag := false } := by
  rw [Part.requestsOf, List.isEmpty_map]
  cases p.dueEntries m period <;> rfl

/-- R113, R114: the entries of the waiting list that a period's requests make at the valley. -/
theorem Part.requestsOf_joining (p : Part) (m : Slot) (period : Byte) (len : Nat) (d : DriveWindows) (id : Nat) (w : WaitItem) :
    (∃ x ∈ p.requestsOf m period len d, x.joinsAtValley = true ∧ x.waitItem m id p.now = some w) ↔
      ∃ r ∈ p.requestsOf m period len d, ∃ earliest latest, r.window = some (earliest, 0, latest) ∧ w =
        { req := .motor m id r.entry r.tag, holds := r.channels.length, planned := p.now, latest := later p.now latest
          motorPriority := r.motorPriority, priority := r.priority } := by
  have zero : later p.now 0 = p.now := by simp [later]
  refine exists_congr fun x => and_congr_right fun _ => ?_
  cases hx : x.window with
  | none => simp [Request.joinsAtValley, hx]
  | some v =>
    obtain ⟨earliest, planned, latest⟩ := v
    simp only [Request.joinsAtValley, Request.waitItem, hx, Option.any_some, Option.map_some, Option.some.injEq, beq_iff_eq,
      Prod.mk.injEq]
    constructor
    · rintro ⟨rfl, rfl⟩
      exact ⟨earliest, latest, ⟨rfl, rfl, rfl⟩, by rw [zero]⟩
    · rintro ⟨a, b, ⟨-, rfl, rfl⟩, rfl⟩
      exact ⟨rfl, by rw [zero]⟩

theorem blockEdges_eq (p : Nat) (roles : Roles) (u : Pulse) : blockEdges p roles u = if 0 < u.w ∧ u.w < p then
    [⟨u.s, roles.pulsed, .high, true, false⟩, ⟨u.e, roles.pulsed, .high, false, false⟩] else [] := by
  simp only [blockEdges, Pulse.isPartial, Bool.and_eq_true, decide_eq_true_eq]

/-- R11, R12, R40, R72 to R74, R94 to R96: the period that a valley of motor m opens in BLOCK mode, the run r steered and the
commutations `comms` made at the valley. -/
def Part.blockPeriod (p : Part) (m : Slot) (period : Byte) (r : SeqRun) (comms : List CommEntry) : NewPeriod :=
  let trim := appliedTrim (p.motor m).pace.trim p.tb.p (p.tb.p / 2)
  let len := ((p.tb.p : Int) + trim).toNat
  { period := period, outcome := ((p.motor m).setq.decide period (p.motor m).setq.recs).1
    plan := .block p.tb.p r.step r.pulse comms, trim := trim, len := len
    stream := BitVec.ofNat 8 (field (p.store.profileWord m 15) 1)
    reqs := p.requestsOf m period len (.block r.step r.pulse) }

/-- R12, R72 to R74: what the valley finds settled of the motor before its period begins: the queue has decided, the sequencer
is steered, and the gates that the step wants on are still on where they were. -/
structure Part.Steered (p : Part) (m : Slot) (period : Byte) (q : Motor) (r : SeqRun) : Prop where
  pace : q.pace = (p.motor m).pace
  setq : q.setq = ((p.motor m).setq.decide period (p.motor m).setq.recs).2
  planner : q.planner = (p.motor m).planner
  finder : q.finder = (p.motor m).finder
  run : q.seqr.run = some r
  sub : ∀ n, r.data ≠ .align n
  dir : r.dir = directionOf (field (p.store.profileWord m 0) 2)
  pulse : r.pulse = blockPulse q.setq.applied.duty.u p.tb.p (field (p.store.profileWord m 2) 1)
  post : r.post = none
  opening : r.opening = []
  low : ((p.motor m).gates.gateAt (rolesOf r.step).low .low).on = true → (q.gates.gateAt (rolesOf r.step).low .low).on = true
  high : ((p.motor m).gates.gateAt (rolesOf r.step).pulsed .high).on = true →
    (q.gates.gateAt (rolesOf r.step).pulsed .high).on = true

section
variable {p t : Part} {m : Slot} {period : Byte} {q : Motor} {r : SeqRun} {comms : List CommEntry} (h : p.Steered m period q r)
include h

/-- R56, R74: the gates of a BLOCK period. -/
theorem Part.Steered.settled (hp : 2000 ≤ p.tb.p) (x : Phase) :
    let after := q.gates.valleyChange p.now q.dt (Planned.block p.tb.p r.step r.pulse comms).level
    (p.motor m).gates.Settled after x .low (x = (rolesOf r.step).low) ∧
      (p.motor m).gates.Settled after x .high (x = (rolesOf r.step).pulsed ∧ r.pulse.w = p.tb.p) := by
  have level : (Planned.block p.tb.p r.step r.pulse comms).level.get x = blockLevel p.tb.p (rolesOf r.step) r.pulse x := by
    cases x <;> rfl
  constructor
  · refine GateStage.valleyChange_settled _ _ _ _ ?_ fun at_ was => ?_
    · rw [level]
      simp [PhaseLevel.of, blockLevel]
    · subst at_
      exact h.low was
  · refine GateStage.valleyChange_settled _ _ _ _ ?_ fun at_ was => ?_
    · rw [level]
      simp only [PhaseLevel.of, blockLevel, Bool.and_eq_true, beq_iff_eq, decide_eq_true_eq]
      exact ⟨fun k => ⟨k, by omega⟩, And.left⟩
    · obtain ⟨rfl, -⟩ := at_
      exact h.high was

/-- R11, R12, R40, R44, R45, R50, R55, R56, R72 to R74, R94 to R96, R113: the period of a BLOCK motor has begun, with a
commutation made at the valley. -/
theorem Part.Steered.opened (hp : 2000 ≤ p.tb.p) (mode : field (p.store.profileWord m 0) 0 ≠ 0) {r₀ : SeqRun} {pc : PostComm}
    (hr : (p.motor m).seqr.run = some r₀) (hpost : r₀.post = some pc)
    (hm : t.motor m = (q.beginPeriod p.tb.p p.now p.nextSched (p.blockPeriod m period r comms)).modScheds Schedules.handOn)
    (hw : ∀ w, w ∈ t.sampler.waiting ↔ (w ∈ p.sampler.waiting ∧ w.ofMotor m = false) ∨
      ∃ x ∈ (p.blockPeriod m period r comms).reqs, x.joinsAtValley = true ∧ x.waitItem m p.nextSched p.now = some w) :
    ∃ sc, p.Opened t m period (p.blockPeriod m period r comms).len sc ∧ sc.drive = .block r.step r.pulse comms false := by
  let n := p.blockPeriod m period r comms
  obtain ⟨handed, latest⟩ := Schedules.handOn_latest (s := q.scheds.push (n.schedule p.nextSched p.now q.setq)) rfl
  let sc : Schedule := { n.schedule p.nextSched p.now q.setq with handed := handed }
  obtain ⟨byLength, trim⟩ := lengthBy_appliedTrim (p.motor m).pace.trim (figE := p.tb.p / 2) hp
  have reqs : sc.reqs = p.requestsOf m period n.len (.block r.step r.pulse) := rfl
  have unposted : ¬∀ r, (p.motor m).seqr.run = some r → r.post = none := fun k =>
    absurd ((k r₀ hr).symm.trans hpost) (by simp)
  refine ⟨sc, ?_, rfl⟩
  exact
    { carrier := by
        rw [hm, ← h.pace, show (n.len : Int) - p.tb.p = n.trim from trim]
        rfl
      setq := by
        rw [hm, ← h.setq]
        exact SetQueue.handFlags_requests q.setq p m period n.len _
      latest := by rw [hm]; exact latest
      head := ⟨rfl, rfl, rfl, congrArg (·.applied.tag) h.setq, rfl, congrArg SetQueue.overrunFlag h.setq,
        congrArg SetQueue.staleFlag h.setq, rfl⟩
      finder := by
        rw [hm, ← h.finder, reqs, ← List.filter_congr fun x hx => Part.requestsOf_unmeasurable hx]
        rfl
      list := fun w => by
        rw [hw, or_iff_right (a := ∀ r, (p.motor m).seqr.run = some r → r.post = none) unposted, reqs]
        exact or_congr_right (Part.requestsOf_joining p m period n.len _ _ w)
      frames := fun k => absurd k unposted
      sine := fun k => absurd k mode
      block := fun _ => by
        have setq : (t.motor m).setq.applied = q.setq.applied := by
          rw [hm]
          exact SetQueue.handFlags_applied _ _
        refine ⟨r, comms, by rw [hm]; exact h.run, byLength, h.dir, h.post, h.opening, ?_, rfl, ?_, reqs, ?_, fun x => ?_⟩
        · rw [setq, h.pulse]
          cases hd : r.data with
          | align k => exact absurd hd (h.sub k)
          | ramp | closed => rfl
        · exact blockEdges_eq p.tb.p (rolesOf r.step) r.pulse
        · rw [hm, ← h.planner]
          rfl
        · rw [hm]
          exact h.settled hp x }

end

end Sys2Proof.Machine
end

section
/-! The valley that makes a postponed commutation (R73, R89). -/

namespace Sys2Proof.Machine

/-- R76, R78, R85: a postponed commutation made at a valley, from any part of the valley's work: its interval is `next`. -/
def Part.MakesPostponed (p : Part) (m : Slot) (c : Carrier) (r : SeqRun) (pc : PostComm) (next : Option Nat) : Prop :=
  ∀ (q : Motor) (st : Store), q.seqr.run = some r → q.pace.carrier = some c → p.store.ReadOn st →
    ∃ st', st.ReadOn st' ∧ (p.put m q st p.sampler).makeWithInterval m pc.kind pc.late true =
      p.put m (q.commutated p.tb.p p.now c r pc.kind pc.late true next) st' (p.sampler.without m)

/-- R73, R87: the run after a postponed commutation made at a valley, its entry at carrier time 0. -/
def SeqRun.afterPostponed (r : SeqRun) (now : Tick) (pc : PostComm) (next : Option Nat) : SeqRun :=
  { r.advance now next with opening := [⟨0, nextStep r.dir r.step, pc.kind, pc.late, true⟩] }

/-- R72, R73: the run as the period begins, its pulse made for the applied duty. -/
def SeqRun.reopened (r : SeqRun) (dir : Direction) (u : Pulse) : SeqRun := { r with dir := dir, pulse := u, opening := [] }

/-- The work of a valley from what its stages give: the queue's decision, the plan's words, the drive, the trim, the windows. -/
theorem Part.openPeriod_of {p x y z v : Part} {m : Slot} {period : Byte} {o : ValleyOutcome} {ws : List (List Nat)}
    {due : List PlanEntry} {plan : Planned} {trim : Int} {stream : Byte} {reqs : List Request}
    (hset : p.valleySetpoint m period = (some o, x)) (hplan : x.readAllFor m (RecordId.plan m).positions = (some ws, y))
    (hdue : (planEntries ws).filter (·.due period) = due) (hdrive : y.planDrive m due = (some plan, z))
    (htrim : appliedTrim (z.motor m).pace.trim z.tb.p plan.figE = trim)
    (hfind : z.findWindows m due plan.windows ((z.tb.p : Int) + trim).toNat = (some (stream, reqs), v)) :
    p.openPeriod m period = v.beginPeriod m
      { period := period, outcome := o, plan := plan, trim := trim, len := ((z.tb.p : Int) + trim).toNat, stream := stream
        reqs := reqs } := by
  subst hdue htrim
  simp only [Part.openPeriod, hset, hplan, hdrive, hfind]

/-- R40, R73, R87: the motor whose queue has decided and whose postponed commutation is made. -/
def Part.caughtUp (p : Part) (m : Slot) (period : Byte) (c : Carrier) (r : SeqRun) (pc : PostComm) (next : Option Nat) :
    Motor :=
  (p.decided m period).commutated p.tb.p p.now c r pc.kind pc.late true next

/-- R72: the pulse of the period that such a valley opens. -/
def Part.pulseAt (p : Part) (m : Slot) (period : Byte) : Pulse :=
  blockPulse (p.decided m period).setq.applied.duty.u p.tb.p (field (p.store.profileWord m 2) 1)

section
variable {p : Part} {m : Slot} {period : Byte} {c : Carrier} {r : SeqRun} {pc : PostComm} {next : Option Nat}

theorem SubData.afterCommutation_ne_align {d : SubData} (h : ∀ n, d ≠ .align n) (stepConfirmed : Bool) (next : Option Nat)
    (n : Nat) : d.afterCommutation stepConfirmed next ≠ .align n := by
  cases d with
  | align k => exact absurd rfl (h k)
  | ramp | closed => simp [SubData.afterCommutation]

theorem Part.caughtUp_run (hopen : r.opening = []) :
    (p.caughtUp m period c r pc next).seqr.run = some (r.afterPostponed p.now pc next) := by
  rw [Part.caughtUp, Motor.commutated_seqr, hopen]
  rfl

/-- R73, R88, R89: the gates and the sequencer as the valley finds them settled. -/
theorem Part.caughtUp_steered (sub : ∀ n, r.data ≠ .align n) : p.Steered m period
    ((p.caughtUp m period c r pc next).steered (r.afterPostponed p.now pc next)
      (directionOf (field (p.store.profileWord m 0) 2)) (p.pulseAt m period))
    ((r.afterPostponed p.now pc next).reopened (directionOf (field (p.store.profileWord m 0) 2)) (p.pulseAt m period)) := by
  obtain ⟨-, pace, setq, planner, finder, -⟩ := Motor.commutated_keeps
    (q := p.decided m period) (pp := p.tb.p) (now := p.now) (c := c) (r := r) (kind := pc.kind) (late := pc.late)
    (postponed := true) (next := next)
  have gates : (p.caughtUp m period c r pc next).gates = (p.motor m).gates.switchRoles p.now (p.motor m).dt (rolesOf r.step)
      (rolesOf (nextStep r.dir r.step)) := (Motor.commutated_atValley (by simp)).1
  exact
    { pace := pace
      setq := setq
      planner := planner
      finder := finder
      run := rfl
      sub := fun n => SubData.afterCommutation_ne_align sub _ _ n
      dir := rfl
      pulse := congrArg (fun x : SetQueue => blockPulse x.applied.duty.u p.tb.p (field (p.store.profileWord m 2) 1)) setq.symm
      post := rfl
      opening := rfl
      low := fun was => (congrArg (fun x : GateStage => (x.gateAt (rolesOf (nextStep r.dir r.step)).low .low).on) gates).trans
        (GateStage.switchRoles_keepsOn _ _ _ r.dir r.step (.inl ⟨rfl, rfl⟩) was)
      high := fun was =>
        (congrArg (fun x : GateStage => (x.gateAt (rolesOf (nextStep r.dir r.step)).pulsed .high).on) gates).trans (GateStage.switchRoles_keepsOn _ _ _ r.dir r.step (.inr ⟨rfl, rfl⟩) was) }

section
variable (hc : (p.motor m).pace.carrier = some c) (hr : (p.motor m).seqr.run = some r) (hpost : r.post = some pc)
  (hopen : r.opening = []) (sub : ∀ n, r.data ≠ .align n) (makes : p.MakesPostponed m c r pc next)
  (hs : (p.motor m).slot.state = .running) (mode : field (p.store.profileWord m 0) 0 ≠ 0) (hread : p.ValleyReadable m)
include hc hr hpost hopen sub makes hs mode hread

/-- R49, R73: the drive of the period: the postponed commutation first. -/
theorem Part.planDrive_postponed {st : Store} (hst : p.store.ReadOn st) (due : List PlanEntry) :
    let dir := directionOf (field (p.store.profileWord m 0) 2)
    let r' := r.afterPostponed p.now pc next
    ∃ st', st.ReadOn st' ∧
      (p.put m (p.decided m period) st p.sampler).planDrive m due =
        (some (.block p.tb.p r'.step (p.pulseAt m period) r'.opening),
          p.put m ((p.caughtUp m period c r pc next).steered r' dir (p.pulseAt m period)) st' (p.sampler.without m)) := by
  intro dir r'
  let q := p.caughtUp m period c r pc next
  obtain ⟨st₁, on₁, made⟩ := makes (p.decided m period) st hr hc hst
  obtain ⟨slot, -, setq, -, -, -⟩ := Motor.commutated_keeps
    (q := p.decided m period) (pp := p.tb.p) (now := p.now) (c := c) (r := r) (kind := pc.kind) (late := pc.late)
    (postponed := true) (next := next)
  obtain ⟨st₂, on₂, read⟩ := p.put_readFor m q st₁ (p.sampler.without m)
    ((hst.trans on₁).readable _ (hread.profile (k := 0) (by decide)))
  obtain ⟨st₃, on₃, planned⟩ := Part.put_planBlockDrive (p := p) (m := m) (sa := p.sampler.without m)
    (q := q) (Part.caughtUp_run hopen) (fun n => SubData.afterCommutation_ne_align sub _ _ n)
    (((hst.trans on₁).trans on₂).readableAll (hread.profileAll (l := [2, 10, 11]) (by decide))) dir
    (Fin.ofNat 6 (field (p.store.profileWord m 0) 3))
  refine ⟨st₃, (on₁.trans on₂).trans on₃, ?_⟩
  have caught : (p.put m (p.decided m period) st p.sampler).makePostponed m =
      p.put m q st₁ (p.sampler.without m) := by
    have post : (p.decided m period).seqr.run.bind SeqRun.post = some pc := by
      rw [show (p.decided m period).seqr.run = some r from hr]
      exact hpost
    simp only [Part.makePostponed, Part.put_motor, post]
    exact made
  have running : (p.put m q st₁ (p.sampler.without m)).running m = true := by
    rw [Part.running, Part.put_motor, show q.slot = (p.motor m).slot from slot, hs]
    rfl
  have fields : (st₁.word ((RecordId.profile m).pos 0)).fields = p.store.profileWord m 0 := (hst.trans on₁).fields _
  have block : driveModeOf (field (p.store.profileWord m 0) 0) = .block := if_neg mode
  have pulse : blockPulse q.setq.applied.duty.u p.tb.p (field (st₂.profileWord m 2) 1) = p.pulseAt m period := by
    rw [((hst.trans on₁).trans on₂).corrected.profileWord, show q.setq = _ from setq]
    rfl
  simp only [Part.planDrive, caught, running, Bool.not_true, Bool.false_eq_true, if_false, read, fields, block]
  rw [← pulse]
  exact planned

/-- R89: the work of the valley, whole. -/
theorem Part.openPeriod_postponed (hn : p.NotStarved m period) :
    let r' := (r.afterPostponed p.now pc next).reopened (directionOf (field (p.store.profileWord m 0) 2)) (p.pulseAt m period)
    let q' := (p.caughtUp m period c r pc next).steered (r.afterPostponed p.now pc next)
      (directionOf (field (p.store.profileWord m 0) 2)) (p.pulseAt m period)
    let n := p.blockPeriod m period r' [⟨0, nextStep r.dir r.step, pc.kind, pc.late, true⟩]
    ∃ st sa, p.store.ReadOn st ∧
      (∀ w, w ∈ sa.waiting ↔ (w ∈ p.sampler.waiting ∧ w.ofMotor m = false) ∨
        ∃ x ∈ n.reqs, x.joinsAtValley = true ∧ x.waitItem m p.nextSched p.now = some w) ∧
      p.openPeriod m period =
        ({ p with nextSched := p.nextSched + 1 } : Part).put m (q'.beginPeriod p.tb.p p.now p.nextSched n) st sa := by
  intro r' q' n
  let fresh := (p.dueEntries m period).map fun e => e.request (p.finderOf m n.len) (.block r'.step r'.pulse)
  obtain ⟨st₁, on₁, set⟩ := Part.valleySetpoint_applied hn (hread.profile (k := 15) (by decide))
  obtain ⟨st₂, on₂, plan⟩ := p.put_readAllFor m (p.decided m period) st₁ p.sampler
    (l := (RecordId.plan m).positions)
    (on₁.readableAll fun pos h => hread pos (List.mem_cons_of_mem _ (List.mem_append_right _ h)))
  obtain ⟨st₃, on₃, drive⟩ := Part.planDrive_postponed (period := period) hc hr hpost hopen sub makes hs mode hread
    (on₁.trans on₂) (p.dueEntries m period)
  have on := (on₁.trans on₂).trans on₃
  obtain ⟨st₄, on₄, windows⟩ := Part.put_findWindows (m := m) (q := q') (sa := p.sampler.without m) on period hread
    r'.step r'.pulse n.len
  obtain ⟨sa, waiting, begun⟩ := p.put_beginPeriod m q' st₄ (p.sampler.without m) { n with reqs := fresh }
    (p.requests_nodup m period n.len _) fun x hx => by
      obtain ⟨e, -, rfl⟩ := List.mem_map.1 hx
      rfl
  have requests : fresh.map Request.atValley = n.reqs := (p.requestsOf_eq m period n.len _).symm
  have due : (planEntries ((RecordId.plan m).positions.map fun pos => (st₁.word pos).fields)).filter (·.due period) =
      p.dueEntries m period := by
    rw [Part.dueEntries, Store.fieldsOf]
    simp only [on₁.fields]
  have trim : appliedTrim ((p.put m q' st₃ (p.sampler.without m)).motor m).pace.trim p.tb.p n.plan.figE = n.trim := by
    rw [Part.put_motor, show q'.pace = (p.motor m).pace from Motor.commutated_keeps.2.1]
    rfl
  refine ⟨st₄, sa, on.trans on₄, fun w => ?_, ?_⟩
  · rw [waiting, ← requests]
    simp only [Sampler.without, List.mem_filter, Bool.not_eq_true', List.mem_map, exists_exists_and_eq_and]
    rfl
  · simp only [requests] at begun
    rw [← begun]
    exact Part.openPeriod_of (z := p.put m q' st₃ (p.sampler.without m)) set plan due drive trim windows

end

end

end Sys2Proof.Machine
end

section
/-! Postponed commutations settled (R73, R76, R78, R85, R89, R117). -/

namespace Sys2Proof.Machine

/-- R117: a request that is cancelled does not wait any more. -/
theorem Request.cancel_status (x : Request) : x.cancel.status ≠ .waiting := by
  rw [Request.cancel]
  cases x.status <;> simp

/-- R117, R120: of the periods before the new one no request waits. -/
theorem Schedules.pushed_none_waiting (s : Schedules) (sc : Schedule) :
    ∀ old ∈ ((s.mapReqs Request.cancel).push sc).handOn.older, ∀ x ∈ old.reqs, x.status ≠ .waiting := by
  intro old hold x hx
  have cancelled : ∃ sc' : Schedule, old.reqs = sc'.reqs.map Request.cancel := by
    simp only [Schedules.handOn, Schedules.push, Schedules.mapReqs, List.mem_filter, List.mem_append, List.mem_map,
      Option.mem_toList, Option.map_eq_some_iff] at hold
    obtain ⟨⟨sc', -, rfl⟩ | ⟨⟨sc', -, rfl⟩, -⟩, -⟩ := hold <;> exact ⟨sc', rfl⟩
  obtain ⟨sc', reqs⟩ := cancelled
  rw [reqs] at hx
  obtain ⟨y, -, rfl⟩ := List.mem_map.1 hx
  exact y.cancel_status

theorem Sequencer.countKind_ramps (s : Sequencer) (kind : CommKind) :
    (s.countKind kind).ramps = if kind = .ramp then bump s.ramps else s.ramps := by
  unfold Sequencer.countKind
  split <;> rfl

/-- R73, R89: VALLEY with a commutation kept for it. -/
theorem exec_valley_postponed {s : State} {m : Slot} {c : Carrier} {r : SeqRun} {pc : PostComm} {next : Option Nat}
    {data : SubData} {sched : Option SchedComm} {timeout : Option Tick} (he : s.part.en = true) (hq : s.part.Quiet)
    (hp : s.part.PeriodInRange) (hs : (s.part.motor m).slot.state = .running) (hpark : (s.part.motor m).slot.park = false)
    (hc : (s.part.motor m).pace.carrier = some c) (hat : later c.valley c.len = s.part.now) (hread : s.part.ValleyReadable m)
    (hn : s.part.NotStarved m (c.period + 1#8)) (mode : field (s.part.store.profileWord m 0) 0 ≠ 0)
    (hr : (s.part.motor m).seqr.run = some r) (hpost : r.post = some pc) (hopen : r.opening = [])
    (sub : ∀ n, r.data ≠ .align n) (makes : s.part.MakesPostponed m c r pc next) (hdata : r.data.afterCommutation r.stepConfirmed next = data)
    (hsched : (r.advance s.part.now next).sched = sched) (htime : (r.advance s.part.now next).timeout = timeout) :
    let q := s.part.motor m
    let step := nextStep r.dir r.step
    ∃ t len sc u, exec (.valley m) s = .next t ∧ t.pending = s.pending ∧ s.part.Beside t.part m ∧
      s.part.Opened t.part m (c.period + 1#8) len sc ∧ (t.part.motor m).seqr.run = some u ∧
      u = { r with
        step := step, dir := u.dir, pulse := u.pulse, data := data, search := some ⟨s.part.now, true, none⟩
        stepConfirmed := false, sched := sched, post := none, timeout := timeout } ∧
      sc.drive = .block step u.pulse [⟨0, step, pc.kind, pc.late, true⟩] false ∧
      (t.part.motor m).seqr.ramps = (if pc.kind = .ramp then bump q.seqr.ramps else q.seqr.ramps) ∧
      (t.part.motor m).samp = { q.samp with missedState := min (q.samp.missedState + q.unfrozenCount) 65535 } ∧
      ∀ old ∈ (t.part.motor m).scheds.older, ∀ x ∈ old.reqs, x.status ≠ .waiting := by
  intro q step
  obtain ⟨st, sa, on, waiting, work⟩ := Part.openPeriod_postponed hc hr hpost hopen sub makes hs mode hread hn
  have steered := Part.caughtUp_steered (p := s.part) (m := m) (period := c.period + 1#8) (c := c) (pc := pc) (next := next) sub
  have opens : s.part.openNext m = s.part.openPeriod m (c.period + 1#8) := by
    simp only [Part.openNext, hc, hpark]
    rfl
  obtain ⟨beside, hm, hsa⟩ := Part.put_settle (p := { s.part with nextSched := s.part.nextSched + 1 })
    ⟨hq.outbox, hq.handed⟩ m _ sa on.corrected
  obtain ⟨sc, opened, drive⟩ := steered.opened hp.inForce.1 mode hr hpost hm (by rw [hsa]; exact waiting)
  refine ⟨_, _, sc, _, exec_of_timedWork he rfl (Part.valley_due hs hc hat) rfl (opens.trans work), rfl,
    ⟨beside.others, beside.tb, beside.en, beside.bus, beside.cause, beside.store⟩, opened, ?_, ?_, drive, ?_, ?_, ?_⟩
  · exact congrArg (fun x : Motor => x.seqr.run) hm
  · subst hdata hsched htime
    simp only [SeqRun.reopened, SeqRun.afterPostponed, SeqRun.advance, hopen]
    rfl
  · refine (congrArg (fun x : Motor => x.seqr.ramps) hm).trans ?_
    exact (congrArg Sequencer.ramps Motor.commutated_seqr).trans (Sequencer.countKind_ramps _ _)
  · exact (congrArg Motor.samp hm).trans Motor.commutated_samp
  · have cancelled : (s.part.caughtUp m (c.period + 1#8) c r pc next).scheds = q.scheds.mapReqs Request.cancel :=
      (Motor.commutated_atValley (by simp)).2
    have none_waits := fun sc => q.scheds.pushed_none_waiting sc
    simp only [← cancelled] at none_waits
    rw [hm]
    exact none_waits _

/-- Settles O30: with the list full each command postpones its commutation; the next valley makes it first. -/
theorem postponedCommutationsWaitForTheValley : Obligations.PostponedCommutationsWaitForTheValley := by
  refine ⟨fun s m c sc r se he hq hs hc hn hl hfull hr hse => ?_,
    fun s m c r pc he hq hp hs hpark hc hat hread hn mode hr hpost hopen => ?_⟩
  · intro q w postponed
    have full : q.listFull s.part.now = true := Motor.listFull_of hc hn hl hfull
    refine ⟨fun t0 confirm hold late hd hsched hread hbelow => ?_, fun late hsched => ?_,
      fun tRef tStep f lost limit hd htime searching hbelow => ?_⟩
    · obtain ⟨st, hst, due⟩ := Part.rampDue_below hr hd hread hbelow
      exact ⟨st, hst.corrected,
        exec_of_postponed (u := q.seqr.holding r _) he hq rfl (Part.delay_rampCommutation hs hr hsched) rfl rfl hse full due⟩
    · exact ⟨_, .refl _, exec_of_postponed he hq rfl (Part.delay_detectedCommutation hs hr hsched) rfl hr hse full
        (Part.detectedDue_of hr hsched)⟩
    · exact ⟨_, .refl _, exec_of_postponed he hq rfl (Part.delay_searchTimeout hs hr htime hse searching) rfl rfl hse full
        (Part.timeoutDue_below hr hd hbelow)⟩
  · intro q w next opens
    refine ⟨fun t0 confirm hold hd hk => ?_, fun tRef tStep f lost limit hd hk => ?_⟩
    · intro interval
      refine exec_valley_postponed (next := some interval) he hq hp hs hpark hc hat hread hn mode hr hpost hopen ?_ ?_ ?_ rfl ?_
      · simp [hd]
      · intro q st hrun hcar on
        obtain ⟨st', on', made⟩ := Part.put_makeWithInterval_ramp m (p := s.part) (sa := s.part.sampler) hrun hcar hd
          (on.readableAll (hread.profileAll (l := [11, 12]) (by decide))) pc.late true
        rw [on.corrected.profileWord, on.corrected.profileWord] at made
        exact ⟨st', on', by rw [hk]; exact made⟩
      · rw [hd]
        rfl
      · simp [SeqRun.advance, hd]
    · refine exec_valley_postponed (next := none) he hq hp hs hpark hc hat hread hn mode hr hpost hopen ?_ ?_ ?_ rfl ?_
      · simp [hd]
      · intro q st hrun hcar on
        exact ⟨st, .refl _, Part.put_makeWithInterval m hrun hcar hk pc.late true⟩
      · rw [hd]
        rfl
      · simp [SeqRun.advance, hd]

end Sys2Proof.Machine
end
